-- ==== Sys2Proof/Word.lean ====
section
/-! DEFINITION. The two widths of CORE (spec/00_scope.md R8): bytes and 16-bit addresses. -/

namespace Sys2Proof

/-- The content of a register A, X, Y, SP, P or of a memory cell: 8 bits (R8, R10, R17). -/
abbrev Byte := BitVec 8

/-- The program counter and every address the CPU presents to the BUS: 16 bits (R8, R12, R51). -/
abbrev Word := BitVec 16

end Sys2Proof
end

