-- ==== Sys2Proof/Syntax.lean ====
section
/-! DEFINITION. The instructions: one constructor per row of spec/opcode_table.json (spec/30_encoding.md R62, R66),
that is per (mnemonic, addressing mode) pair. An addressing mode an instruction does not have is no term
(spec/40_dispatch_addressing.md R100).
Operands (R61): `v` an immediate byte, `d` a zero-page byte or a branch offset, `w` the 16-bit operand word.
Suffixes of the constructors: Imm Immediate, Acc Accumulator, Zp ZeroPage, ZpX ZeroPage,X, ZpY ZeroPage,Y, Abs Absolute,
AbsX Absolute,X, AbsY Absolute,Y, Ind Indirect, IndX Indirect,X, IndY Indirect,Y; none for Implied, Relative and JSR. -/

namespace Sys2Proof

inductive Instr where
  | ldaImm (v : Byte)   -- LDA, R110: load A
  | ldaZp (d : Byte)
  | ldaZpX (d : Byte)
  | ldaAbs (w : Word)
  | ldaAbsX (w : Word)
  | ldaAbsY (w : Word)
  | ldaIndX (d : Byte)
  | ldaIndY (d : Byte)
  | ldxImm (v : Byte)   -- LDX, R111: load X
  | ldxZp (d : Byte)
  | ldxZpY (d : Byte)
  | ldxAbs (w : Word)
  | ldxAbsY (w : Word)
  | ldyImm (v : Byte)   -- LDY, R112: load Y
  | ldyZp (d : Byte)
  | ldyZpX (d : Byte)
  | ldyAbs (w : Word)
  | ldyAbsX (w : Word)
  | staZp (d : Byte)   -- STA, R113: store A
  | staZpX (d : Byte)
  | staAbs (w : Word)
  | staAbsX (w : Word)
  | staAbsY (w : Word)
  | staIndX (d : Byte)
  | staIndY (d : Byte)
  | stxZp (d : Byte)   -- STX, R114: store X
  | stxZpY (d : Byte)
  | stxAbs (w : Word)
  | styZp (d : Byte)   -- STY, R115: store Y
  | styZpX (d : Byte)
  | styAbs (w : Word)
  | tax   -- TAX, R116: A to X
  | tay   -- TAY, R117: A to Y
  | txa   -- TXA, R118: X to A
  | tya   -- TYA, R119: Y to A
  | tsx   -- TSX, R120: SP to X
  | txs   -- TXS, R121: X to SP
  | adcImm (v : Byte)   -- ADC, R130: add with carry
  | adcZp (d : Byte)
  | adcZpX (d : Byte)
  | adcAbs (w : Word)
  | adcAbsX (w : Word)
  | adcAbsY (w : Word)
  | adcIndX (d : Byte)
  | adcIndY (d : Byte)
  | sbcImm (v : Byte)   -- SBC, R132: subtract with borrow
  | sbcZp (d : Byte)
  | sbcZpX (d : Byte)
  | sbcAbs (w : Word)
  | sbcAbsX (w : Word)
  | sbcAbsY (w : Word)
  | sbcIndX (d : Byte)
  | sbcIndY (d : Byte)
  | andImm (v : Byte)   -- AND, R134: and
  | andZp (d : Byte)
  | andZpX (d : Byte)
  | andAbs (w : Word)
  | andAbsX (w : Word)
  | andAbsY (w : Word)
  | andIndX (d : Byte)
  | andIndY (d : Byte)
  | oraImm (v : Byte)   -- ORA, R135: or
  | oraZp (d : Byte)
  | oraZpX (d : Byte)
  | oraAbs (w : Word)
  | oraAbsX (w : Word)
  | oraAbsY (w : Word)
  | oraIndX (d : Byte)
  | oraIndY (d : Byte)
  | eorImm (v : Byte)   -- EOR, R136: exclusive or
  | eorZp (d : Byte)
  | eorZpX (d : Byte)
  | eorAbs (w : Word)
  | eorAbsX (w : Word)
  | eorAbsY (w : Word)
  | eorIndX (d : Byte)
  | eorIndY (d : Byte)
  | bitZp (d : Byte)   -- BIT, R137: test bits
  | bitAbs (w : Word)
  | cmpImm (v : Byte)   -- CMP, R138: compare with A
  | cmpZp (d : Byte)
  | cmpZpX (d : Byte)
  | cmpAbs (w : Word)
  | cmpAbsX (w : Word)
  | cmpAbsY (w : Word)
  | cmpIndX (d : Byte)
  | cmpIndY (d : Byte)
  | cpxImm (v : Byte)   -- CPX, R139: compare with X
  | cpxZp (d : Byte)
  | cpxAbs (w : Word)
  | cpyImm (v : Byte)   -- CPY, R140: compare with Y
  | cpyZp (d : Byte)
  | cpyAbs (w : Word)
  | aslAcc   -- ASL, R150: shift left
  | aslZp (d : Byte)
  | aslZpX (d : Byte)
  | aslAbs (w : Word)
  | aslAbsX (w : Word)
  | lsrAcc   -- LSR, R151: shift right
  | lsrZp (d : Byte)
  | lsrZpX (d : Byte)
  | lsrAbs (w : Word)
  | lsrAbsX (w : Word)
  | rolAcc   -- ROL, R152: rotate left
  | rolZp (d : Byte)
  | rolZpX (d : Byte)
  | rolAbs (w : Word)
  | rolAbsX (w : Word)
  | rorAcc   -- ROR, R153: rotate right
  | rorZp (d : Byte)
  | rorZpX (d : Byte)
  | rorAbs (w : Word)
  | rorAbsX (w : Word)
  | incZp (d : Byte)   -- INC, R154: increment memory
  | incZpX (d : Byte)
  | incAbs (w : Word)
  | incAbsX (w : Word)
  | decZp (d : Byte)   -- DEC, R155: decrement memory
  | decZpX (d : Byte)
  | decAbs (w : Word)
  | decAbsX (w : Word)
  | inx   -- INX, R156: increment X
  | iny   -- INY, R157: increment Y
  | dex   -- DEX, R158: decrement X
  | dey   -- DEY, R159: decrement Y
  | bcc (d : Byte)   -- BCC, R171: branch on C = 0
  | bcs (d : Byte)   -- BCS, R172: branch on C = 1
  | beq (d : Byte)   -- BEQ, R173: branch on Z = 1
  | bmi (d : Byte)   -- BMI, R174: branch on N = 1
  | bne (d : Byte)   -- BNE, R175: branch on Z = 0
  | bpl (d : Byte)   -- BPL, R176: branch on N = 0
  | bvc (d : Byte)   -- BVC, R177: branch on V = 0
  | bvs (d : Byte)   -- BVS, R178: branch on V = 1
  | jmpAbs (w : Word)   -- JMP, R179: jump
  | jmpInd (w : Word)
  | jsr (w : Word)   -- JSR, R180: call
  | rts   -- RTS, R181: return
  | rti   -- RTI, R182: return from interrupt
  | pha   -- PHA, R190: push A
  | php   -- PHP, R191: push P
  | pla   -- PLA, R192: pull A
  | plp   -- PLP, R193: pull P
  | clc   -- CLC, R194: clear C
  | sec   -- SEC, R195: set C
  | cli   -- CLI, R196: clear I
  | sei   -- SEI, R197: set I
  | cld   -- CLD, R198: clear D
  | sed   -- SED, R199: set D
  | clv   -- CLV, R200: clear V
  | nop   -- NOP, R201: no operation
  | brk   -- BRK, R203: stub: PC + 1, 7 cycles
deriving DecidableEq, Repr

end Sys2Proof
end

