-- ==== Sys2Proof/Decode.lean ====
section
/-! DEFINITION. Decoding and encoding (spec/30_encoding.md R60 to R66): the opcode byte alone selects the instruction, its
addressing mode and its length; operand words are little-endian. Decoding is total and refuses by name. -/

namespace Sys2Proof

/-- The 16-bit value of a high and a low byte, `{hi, lo} = hi * 256 + lo` (R9, R40). -/
def wordOf (lo hi : Byte) : Word := BitVec.ofNat 16 (hi.toNat * 256 + lo.toNat)

/-- The less significant byte of a 16-bit value (R40). -/
def Word.lo (w : Word) : Byte := BitVec.ofNat 8 w.toNat

/-- The more significant byte of a 16-bit value, also its page `a[15:8]` (R9, R40). -/
def Word.hi (w : Word) : Byte := BitVec.ofNat 8 (w.toNat / 256)

/-- How an instruction is finished from the bytes after its opcode: the three formats F1, F2, F3 of R60. -/
inductive Template where
  /-- F1: no operand byte. -/
  | implied (i : Instr)
  /-- F2: one operand byte. -/
  | byte (f : Byte → Instr)
  /-- F3: an operand word, low byte first. -/
  | word (f : Word → Instr)

/-- The length in bytes of an instruction of this format (R60). -/
def Template.length : Template → Nat
  | .implied _ => 1
  | .byte _ => 2
  | .word _ => 3

/-- Row 0x of the opcode matrix (R62). -/
def opcodeRow0 : List (Byte × Template) :=
  [(0x00, .implied .brk),
   (0x01, .byte .oraIndX),
   (0x05, .byte .oraZp),
   (0x06, .byte .aslZp),
   (0x08, .implied .php),
   (0x09, .byte .oraImm),
   (0x0A, .implied .aslAcc),
   (0x0D, .word .oraAbs),
   (0x0E, .word .aslAbs)]

/-- Row 1x of the opcode matrix (R62). -/
def opcodeRow1 : List (Byte × Template) :=
  [(0x10, .byte .bpl),
   (0x11, .byte .oraIndY),
   (0x15, .byte .oraZpX),
   (0x16, .byte .aslZpX),
   (0x18, .implied .clc),
   (0x19, .word .oraAbsY),
   (0x1D, .word .oraAbsX),
   (0x1E, .word .aslAbsX)]

/-- Row 2x of the opcode matrix (R62). -/
def opcodeRow2 : List (Byte × Template) :=
  [(0x20, .word .jsr),
   (0x21, .byte .andIndX),
   (0x24, .byte .bitZp),
   (0x25, .byte .andZp),
   (0x26, .byte .rolZp),
   (0x28, .implied .plp),
   (0x29, .byte .andImm),
   (0x2A, .implied .rolAcc),
   (0x2C, .word .bitAbs),
   (0x2D, .word .andAbs),
   (0x2E, .word .rolAbs)]

/-- Row 3x of the opcode matrix (R62). -/
def opcodeRow3 : List (Byte × Template) :=
  [(0x30, .byte .bmi),
   (0x31, .byte .andIndY),
   (0x35, .byte .andZpX),
   (0x36, .byte .rolZpX),
   (0x38, .implied .sec),
   (0x39, .word .andAbsY),
   (0x3D, .word .andAbsX),
   (0x3E, .word .rolAbsX)]

/-- Row 4x of the opcode matrix (R62). -/
def opcodeRow4 : List (Byte × Template) :=
  [(0x40, .implied .rti),
   (0x41, .byte .eorIndX),
   (0x45, .byte .eorZp),
   (0x46, .byte .lsrZp),
   (0x48, .implied .pha),
   (0x49, .byte .eorImm),
   (0x4A, .implied .lsrAcc),
   (0x4C, .word .jmpAbs),
   (0x4D, .word .eorAbs),
   (0x4E, .word .lsrAbs)]

/-- Row 5x of the opcode matrix (R62). -/
def opcodeRow5 : List (Byte × Template) :=
  [(0x50, .byte .bvc),
   (0x51, .byte .eorIndY),
   (0x55, .byte .eorZpX),
   (0x56, .byte .lsrZpX),
   (0x58, .implied .cli),
   (0x59, .word .eorAbsY),
   (0x5D, .word .eorAbsX),
   (0x5E, .word .lsrAbsX)]

/-- Row 6x of the opcode matrix (R62). -/
def opcodeRow6 : List (Byte × Template) :=
  [(0x60, .implied .rts),
   (0x61, .byte .adcIndX),
   (0x65, .byte .adcZp),
   (0x66, .byte .rorZp),
   (0x68, .implied .pla),
   (0x69, .byte .adcImm),
   (0x6A, .implied .rorAcc),
   (0x6C, .word .jmpInd),
   (0x6D, .word .adcAbs),
   (0x6E, .word .rorAbs)]

/-- Row 7x of the opcode matrix (R62). -/
def opcodeRow7 : List (Byte × Template) :=
  [(0x70, .byte .bvs),
   (0x71, .byte .adcIndY),
   (0x75, .byte .adcZpX),
   (0x76, .byte .rorZpX),
   (0x78, .implied .sei),
   (0x79, .word .adcAbsY),
   (0x7D, .word .adcAbsX),
   (0x7E, .word .rorAbsX)]

/-- Row 8x of the opcode matrix (R62). -/
def opcodeRow8 : List (Byte × Template) :=
  [(0x81, .byte .staIndX),
   (0x84, .byte .styZp),
   (0x85, .byte .staZp),
   (0x86, .byte .stxZp),
   (0x88, .implied .dey),
   (0x8A, .implied .txa),
   (0x8C, .word .styAbs),
   (0x8D, .word .staAbs),
   (0x8E, .word .stxAbs)]

/-- Row 9x of the opcode matrix (R62). -/
def opcodeRow9 : List (Byte × Template) :=
  [(0x90, .byte .bcc),
   (0x91, .byte .staIndY),
   (0x94, .byte .styZpX),
   (0x95, .byte .staZpX),
   (0x96, .byte .stxZpY),
   (0x98, .implied .tya),
   (0x99, .word .staAbsY),
   (0x9A, .implied .txs),
   (0x9D, .word .staAbsX)]

/-- Row Ax of the opcode matrix (R62). -/
def opcodeRowA : List (Byte × Template) :=
  [(0xA0, .byte .ldyImm),
   (0xA1, .byte .ldaIndX),
   (0xA2, .byte .ldxImm),
   (0xA4, .byte .ldyZp),
   (0xA5, .byte .ldaZp),
   (0xA6, .byte .ldxZp),
   (0xA8, .implied .tay),
   (0xA9, .byte .ldaImm),
   (0xAA, .implied .tax),
   (0xAC, .word .ldyAbs),
   (0xAD, .word .ldaAbs),
   (0xAE, .word .ldxAbs)]

/-- Row Bx of the opcode matrix (R62). -/
def opcodeRowB : List (Byte × Template) :=
  [(0xB0, .byte .bcs),
   (0xB1, .byte .ldaIndY),
   (0xB4, .byte .ldyZpX),
   (0xB5, .byte .ldaZpX),
   (0xB6, .byte .ldxZpY),
   (0xB8, .implied .clv),
   (0xB9, .word .ldaAbsY),
   (0xBA, .implied .tsx),
   (0xBC, .word .ldyAbsX),
   (0xBD, .word .ldaAbsX),
   (0xBE, .word .ldxAbsY)]

/-- Row Cx of the opcode matrix (R62). -/
def opcodeRowC : List (Byte × Template) :=
  [(0xC0, .byte .cpyImm),
   (0xC1, .byte .cmpIndX),
   (0xC4, .byte .cpyZp),
   (0xC5, .byte .cmpZp),
   (0xC6, .byte .decZp),
   (0xC8, .implied .iny),
   (0xC9, .byte .cmpImm),
   (0xCA, .implied .dex),
   (0xCC, .word .cpyAbs),
   (0xCD, .word .cmpAbs),
   (0xCE, .word .decAbs)]

/-- Row Dx of the opcode matrix (R62). -/
def opcodeRowD : List (Byte × Template) :=
  [(0xD0, .byte .bne),
   (0xD1, .byte .cmpIndY),
   (0xD5, .byte .cmpZpX),
   (0xD6, .byte .decZpX),
   (0xD8, .implied .cld),
   (0xD9, .word .cmpAbsY),
   (0xDD, .word .cmpAbsX),
   (0xDE, .word .decAbsX)]

/-- Row Ex of the opcode matrix (R62). -/
def opcodeRowE : List (Byte × Template) :=
  [(0xE0, .byte .cpxImm),
   (0xE1, .byte .sbcIndX),
   (0xE4, .byte .cpxZp),
   (0xE5, .byte .sbcZp),
   (0xE6, .byte .incZp),
   (0xE8, .implied .inx),
   (0xE9, .byte .sbcImm),
   (0xEA, .implied .nop),
   (0xEC, .word .cpxAbs),
   (0xED, .word .sbcAbs),
   (0xEE, .word .incAbs)]

/-- Row Fx of the opcode matrix (R62). -/
def opcodeRowF : List (Byte × Template) :=
  [(0xF0, .byte .beq),
   (0xF1, .byte .sbcIndY),
   (0xF5, .byte .sbcZpX),
   (0xF6, .byte .incZpX),
   (0xF8, .implied .sed),
   (0xF9, .word .sbcAbsY),
   (0xFD, .word .sbcAbsX),
   (0xFE, .word .incAbsX)]

/-- The opcode matrix (R62) by its rows, the high nibble of the opcode: 151 defined opcodes in all. -/
def opcodeRow : Nat → List (Byte × Template)
  | 0x0 => opcodeRow0
  | 0x1 => opcodeRow1
  | 0x2 => opcodeRow2
  | 0x3 => opcodeRow3
  | 0x4 => opcodeRow4
  | 0x5 => opcodeRow5
  | 0x6 => opcodeRow6
  | 0x7 => opcodeRow7
  | 0x8 => opcodeRow8
  | 0x9 => opcodeRow9
  | 0xA => opcodeRowA
  | 0xB => opcodeRowB
  | 0xC => opcodeRowC
  | 0xD => opcodeRowD
  | 0xE => opcodeRowE
  | 0xF => opcodeRowF
  | _ => []

/-- The entry of an opcode in a row. -/
def findOpcode : List (Byte × Template) → Byte → Option Template
  | [], _ => none
  | (b, t) :: row, op => if op = b then some t else findOpcode row op

/-- The entry of an opcode byte; none for the 105 undefined ones (R64). -/
def template (op : Byte) : Option Template := findOpcode (opcodeRow (op.toNat / 16)) op

/-- Why bytes are no instruction. -/
inductive DecodeError where
  /-- There is no byte to decode. -/
  | noBytes
  /-- The opcode byte is one of the 105 undefined ones (R64). -/
  | undefinedOpcode (op : Byte)
  /-- The bytes end before the instruction's operand does. -/
  | truncated (op : Byte)
deriving DecidableEq, Repr

/-- Read one instruction from the front of a list of bytes; the answer holds the bytes left over (R60, R65). -/
def decode : List Byte → Except DecodeError (Instr × List Byte)
  | [] => .error .noBytes
  | op :: rest =>
    match template op with
    | none => .error (.undefinedOpcode op)
    | some (.implied i) => .ok (i, rest)
    | some (.byte f) =>
      match rest with
      | d :: rest => .ok (f d, rest)
      | [] => .error (.truncated op)
    | some (.word f) =>
      match rest with
      | lo :: hi :: rest => .ok (f (wordOf lo hi), rest)
      | _ => .error (.truncated op)

/-- The bytes of an instruction at ascending addresses, from the table of R66. -/
def encode : Instr → List Byte
  | .ldaImm v => [0xA9, v]
  | .ldaZp d => [0xA5, d]
  | .ldaZpX d => [0xB5, d]
  | .ldaAbs w => [0xAD, Word.lo w, Word.hi w]
  | .ldaAbsX w => [0xBD, Word.lo w, Word.hi w]
  | .ldaAbsY w => [0xB9, Word.lo w, Word.hi w]
  | .ldaIndX d => [0xA1, d]
  | .ldaIndY d => [0xB1, d]
  | .ldxImm v => [0xA2, v]
  | .ldxZp d => [0xA6, d]
  | .ldxZpY d => [0xB6, d]
  | .ldxAbs w => [0xAE, Word.lo w, Word.hi w]
  | .ldxAbsY w => [0xBE, Word.lo w, Word.hi w]
  | .ldyImm v => [0xA0, v]
  | .ldyZp d => [0xA4, d]
  | .ldyZpX d => [0xB4, d]
  | .ldyAbs w => [0xAC, Word.lo w, Word.hi w]
  | .ldyAbsX w => [0xBC, Word.lo w, Word.hi w]
  | .staZp d => [0x85, d]
  | .staZpX d => [0x95, d]
  | .staAbs w => [0x8D, Word.lo w, Word.hi w]
  | .staAbsX w => [0x9D, Word.lo w, Word.hi w]
  | .staAbsY w => [0x99, Word.lo w, Word.hi w]
  | .staIndX d => [0x81, d]
  | .staIndY d => [0x91, d]
  | .stxZp d => [0x86, d]
  | .stxZpY d => [0x96, d]
  | .stxAbs w => [0x8E, Word.lo w, Word.hi w]
  | .styZp d => [0x84, d]
  | .styZpX d => [0x94, d]
  | .styAbs w => [0x8C, Word.lo w, Word.hi w]
  | .tax => [0xAA]
  | .tay => [0xA8]
  | .txa => [0x8A]
  | .tya => [0x98]
  | .tsx => [0xBA]
  | .txs => [0x9A]
  | .adcImm v => [0x69, v]
  | .adcZp d => [0x65, d]
  | .adcZpX d => [0x75, d]
  | .adcAbs w => [0x6D, Word.lo w, Word.hi w]
  | .adcAbsX w => [0x7D, Word.lo w, Word.hi w]
  | .adcAbsY w => [0x79, Word.lo w, Word.hi w]
  | .adcIndX d => [0x61, d]
  | .adcIndY d => [0x71, d]
  | .sbcImm v => [0xE9, v]
  | .sbcZp d => [0xE5, d]
  | .sbcZpX d => [0xF5, d]
  | .sbcAbs w => [0xED, Word.lo w, Word.hi w]
  | .sbcAbsX w => [0xFD, Word.lo w, Word.hi w]
  | .sbcAbsY w => [0xF9, Word.lo w, Word.hi w]
  | .sbcIndX d => [0xE1, d]
  | .sbcIndY d => [0xF1, d]
  | .andImm v => [0x29, v]
  | .andZp d => [0x25, d]
  | .andZpX d => [0x35, d]
  | .andAbs w => [0x2D, Word.lo w, Word.hi w]
  | .andAbsX w => [0x3D, Word.lo w, Word.hi w]
  | .andAbsY w => [0x39, Word.lo w, Word.hi w]
  | .andIndX d => [0x21, d]
  | .andIndY d => [0x31, d]
  | .oraImm v => [0x09, v]
  | .oraZp d => [0x05, d]
  | .oraZpX d => [0x15, d]
  | .oraAbs w => [0x0D, Word.lo w, Word.hi w]
  | .oraAbsX w => [0x1D, Word.lo w, Word.hi w]
  | .oraAbsY w => [0x19, Word.lo w, Word.hi w]
  | .oraIndX d => [0x01, d]
  | .oraIndY d => [0x11, d]
  | .eorImm v => [0x49, v]
  | .eorZp d => [0x45, d]
  | .eorZpX d => [0x55, d]
  | .eorAbs w => [0x4D, Word.lo w, Word.hi w]
  | .eorAbsX w => [0x5D, Word.lo w, Word.hi w]
  | .eorAbsY w => [0x59, Word.lo w, Word.hi w]
  | .eorIndX d => [0x41, d]
  | .eorIndY d => [0x51, d]
  | .bitZp d => [0x24, d]
  | .bitAbs w => [0x2C, Word.lo w, Word.hi w]
  | .cmpImm v => [0xC9, v]
  | .cmpZp d => [0xC5, d]
  | .cmpZpX d => [0xD5, d]
  | .cmpAbs w => [0xCD, Word.lo w, Word.hi w]
  | .cmpAbsX w => [0xDD, Word.lo w, Word.hi w]
  | .cmpAbsY w => [0xD9, Word.lo w, Word.hi w]
  | .cmpIndX d => [0xC1, d]
  | .cmpIndY d => [0xD1, d]
  | .cpxImm v => [0xE0, v]
  | .cpxZp d => [0xE4, d]
  | .cpxAbs w => [0xEC, Word.lo w, Word.hi w]
  | .cpyImm v => [0xC0, v]
  | .cpyZp d => [0xC4, d]
  | .cpyAbs w => [0xCC, Word.lo w, Word.hi w]
  | .aslAcc => [0x0A]
  | .aslZp d => [0x06, d]
  | .aslZpX d => [0x16, d]
  | .aslAbs w => [0x0E, Word.lo w, Word.hi w]
  | .aslAbsX w => [0x1E, Word.lo w, Word.hi w]
  | .lsrAcc => [0x4A]
  | .lsrZp d => [0x46, d]
  | .lsrZpX d => [0x56, d]
  | .lsrAbs w => [0x4E, Word.lo w, Word.hi w]
  | .lsrAbsX w => [0x5E, Word.lo w, Word.hi w]
  | .rolAcc => [0x2A]
  | .rolZp d => [0x26, d]
  | .rolZpX d => [0x36, d]
  | .rolAbs w => [0x2E, Word.lo w, Word.hi w]
  | .rolAbsX w => [0x3E, Word.lo w, Word.hi w]
  | .rorAcc => [0x6A]
  | .rorZp d => [0x66, d]
  | .rorZpX d => [0x76, d]
  | .rorAbs w => [0x6E, Word.lo w, Word.hi w]
  | .rorAbsX w => [0x7E, Word.lo w, Word.hi w]
  | .incZp d => [0xE6, d]
  | .incZpX d => [0xF6, d]
  | .incAbs w => [0xEE, Word.lo w, Word.hi w]
  | .incAbsX w => [0xFE, Word.lo w, Word.hi w]
  | .decZp d => [0xC6, d]
  | .decZpX d => [0xD6, d]
  | .decAbs w => [0xCE, Word.lo w, Word.hi w]
  | .decAbsX w => [0xDE, Word.lo w, Word.hi w]
  | .inx => [0xE8]
  | .iny => [0xC8]
  | .dex => [0xCA]
  | .dey => [0x88]
  | .bcc d => [0x90, d]
  | .bcs d => [0xB0, d]
  | .beq d => [0xF0, d]
  | .bmi d => [0x30, d]
  | .bne d => [0xD0, d]
  | .bpl d => [0x10, d]
  | .bvc d => [0x50, d]
  | .bvs d => [0x70, d]
  | .jmpAbs w => [0x4C, Word.lo w, Word.hi w]
  | .jmpInd w => [0x6C, Word.lo w, Word.hi w]
  | .jsr w => [0x20, Word.lo w, Word.hi w]
  | .rts => [0x60]
  | .rti => [0x40]
  | .pha => [0x48]
  | .php => [0x08]
  | .pla => [0x68]
  | .plp => [0x28]
  | .clc => [0x18]
  | .sec => [0x38]
  | .cli => [0x58]
  | .sei => [0x78]
  | .cld => [0xD8]
  | .sed => [0xF8]
  | .clv => [0xB8]
  | .nop => [0xEA]
  | .brk => [0x00]

/-- The bytes of the low `nbits` bits of `w`, numbered as spec/opcode_table.json numbers them: bits 7..0 are the first
byte; every bit above `nbits` is 0, up to the longest instruction (3 bytes). -/
def tableBytes (nbits w : Nat) : List Byte :=
  let v := w % 2 ^ nbits
  [BitVec.ofNat 8 v, BitVec.ofNat 8 (v / 2 ^ 8), BitVec.ofNat 8 (v / 2 ^ 16)]

/-- The instruction the decoder reads from a table word. -/
def decodeTableWord (nbits w : Nat) : Option Instr :=
  match decode (tableBytes nbits w) with
  | .ok (i, _) => some i
  | .error _ => none

end Sys2Proof
end

