-- ==== Sys2Proof/Config.lean ====
section
/-! DEFINITION. What one CORE fixes when it is instantiated: the open parameters of spec/00_scope.md R8.
The launch memory image, the fourth parameter, is the memory a state is created with (`State.create`). -/

namespace Sys2Proof

/-- JSR_PUSH_OFFSET (R8, R180, 92_eei_decisions D10): what JSR pushes is PC plus this; 2 or 3, nothing else. -/
inductive JsrPushOffset where
  /-- 2, the default: the address of the last byte of the JSR instruction. -/
  | two
  /-- 3: the address of the instruction after the JSR. -/
  | three
deriving DecidableEq, Repr

/-- The parameters of R8. They are launch parameters of the spec, so they are plain data beside the
registers (`State.cfg`), and every statement holds for every value of them. -/
structure Config where
  /-- N, the number of cells of the BUS (R8, R30; D2). -/
  busSize : Nat
  /-- CYCW, the width of the cycle counter in bits (R8, R16; D3). -/
  cycWidth : Nat
  /-- JSR_PUSH_OFFSET (R8, R180, R181; D10). -/
  jsrPushOffset : JsrPushOffset
deriving DecidableEq, Repr

/-- The defaults R8 gives: N = 65536, CYCW = 64, JSR_PUSH_OFFSET = 2. -/
def Config.default : Config := { busSize := 65536, cycWidth := 64, jsrPushOffset := .two }

end Sys2Proof
end

