-- ==== Sys2Proof/Machine/State.lean ====
section
/-! DEFINITION. The state of CORE (spec/10_state.md): everything the spec gives the machine, as plain data. -/

namespace Sys2Proof.Machine

/-- The BUS's backing cells (R17): (cell index, byte), indices strictly rising, no entry equal to what an unlisted
cell holds (`unlistedByte` and `Memory.wf` in Machine/Memory.lean). -/
abbrev Memory := List Host.Cell

/-- The BUS's alias table (R18): (address, index of the backing cell it names), addresses strictly rising, only the
addresses that do not name their own cell (`AliasTable.wf` in Machine/Memory.lean). -/
abbrev AliasTable := List (Nat × Nat)

structure State where
  /-- The launch parameters N, CYCW, JSR_PUSH_OFFSET (R8); nothing changes them. -/
  cfg : Config
  /-- Accumulator (R10). -/
  a : Byte
  /-- Index register X (R10). -/
  x : Byte
  /-- Index register Y (R10). -/
  y : Byte
  /-- Stack pointer, an offset into the stack page (R11). -/
  sp : Byte
  /-- Program counter (R12). -/
  pc : Word
  /-- Status byte (R13); its bits are named in Machine/Flags.lean. -/
  p : Byte
  /-- Cycle counter (R16), below 2^CYCW. -/
  cyc : Nat
  /-- Backing cells `cell[0..N-1]` (R17). -/
  cells : Memory
  /-- Alias table `ref[0..N-1]` (R18). -/
  refs : AliasTable
deriving DecidableEq, Repr

/-- Why an operation of the CPU fails. A failure changes no state (R211, R212); the outcome carries none. -/
inductive Fault where
  /-- UNKNOWN_OPCODE: raised by fetching one of the 105 undefined opcode bytes (R64, R211). Safe: the spec's own outcome. -/
  | unknownOpcode (op : Byte)
  /-- BUS_ERROR: raised by the opcode fetch, an operand fetch or an access of an instruction at an address at or above N
  (R210, R212). Safe: the spec's own outcome; it cannot occur with N = 65536. -/
  | busError (addr : Word)
deriving DecidableEq, Repr

/-- Why the model would give an instruction no meaning. -/
inductive Refusal where
  /-- An arm of `exec` without a meaning yet. No arm is left that raises it. Safe. -/
  | notModelled (mnemonic : String)
deriving DecidableEq, Repr

/-- A newly created CORE with these parameters and this launch image (R232): the registers hold the reset values,
every address names its own cell. -/
def State.create (cfg : Config) (image : Memory) : State :=
  { cfg := cfg, a := 0x00, x := 0x00, y := 0x00, sp := 0xFF, pc := 0x0000, p := 0x20, cyc := 0,
    cells := image, refs := [] }

/-- The machine right after creation or RESET with the default parameters (R8, R20, R230, R232) and an image that lists
nothing (log 4). -/
def State.reset : State := State.create Config.default []

end Sys2Proof.Machine
end

