-- ==== Sys2Proof/Machine/Flags.lean ====
section
/-! DEFINITION. The status byte's bits (spec/10_state.md R13 to R15) and every flag and result computation of add, subtract
and compare (spec/42_arithmetic_logic_compare.md R130 to R140). -/

namespace Sys2Proof.Machine

/-- The fields of P (R13). -/
inductive Flag where
  /-- Carry. -/
  | c
  /-- Zero. -/
  | z
  /-- InterruptDisable: a stored bit that masks nothing (R214). -/
  | i
  /-- Decimal. -/
  | d
  /-- Break: a stored bit (R13). -/
  | b
  /-- Unused: always 1 (R14). -/
  | u
  /-- Overflow. -/
  | v
  /-- Sign / Negative. -/
  | n
deriving DecidableEq, Repr

/-- The bit number of a flag (R13). -/
def Flag.bit : Flag → Nat
  | .c => 0
  | .z => 1
  | .i => 2
  | .d => 3
  | .b => 4
  | .u => 5
  | .v => 6
  | .n => 7

/-- Read one flag of a status byte. -/
def flagOf (p : Byte) (f : Flag) : Bool := p.getLsbD f.bit

/-- Write one flag of a status byte, leaving the others (R99). -/
def withFlag (f : Flag) (v : Bool) (p : Byte) : Byte :=
  if v then p ||| (1#8 <<< f.bit) else p &&& ~~~(1#8 <<< f.bit)

/-- `SetZN(v)` on a status byte (R97). -/
def withZN (v p : Byte) : Byte := withFlag .n (v.getLsbD 7) (withFlag .z (v == 0) p)

/-- `WriteP(v)`: the byte P holds after v is written to it (R14, R99). -/
def statusByte (v : Byte) : Byte := v ||| 0x20

/-- The sum ADC takes in decimal mode, 0 to 613 (R131). -/
def adcDecimal (a m : Byte) (c : Bool) : Nat :=
  let lo := a.toNat % 16 + m.toNat % 16 + c.toNat
  let t := a.toNat + m.toNat + c.toNat
  let t := if 9 < lo then t + 0x06 else t
  if 0x99 < t then t + 0x60 else t

/-- The sum ADC takes: binary, or decimal when P.D = 1 (R130). -/
def adcSum (decimal : Bool) (a m : Byte) (c : Bool) : Nat :=
  if decimal then adcDecimal a m c else a.toNat + m.toNat + c.toNat

/-- ADC's overflow test, `(~(A ^ M) & (A ^ R) & 0x80) != 0` (R130). -/
def adcOverflow (a m r : Byte) : Bool := (~~~(a ^^^ m) &&& (a ^^^ r) &&& 0x80) != 0

/-- The binary difference `A - M - (1 - C)`, -256 to 255 (R132). -/
def sbcDiff (a m : Byte) (c : Bool) : Int := (a.toNat : Int) - m.toNat - (1 - c.toNat)

/-- The difference SBC takes in decimal mode before it is reduced mod 256 (R133). -/
def sbcDecimal (a m : Byte) (c : Bool) : Int :=
  let d := sbcDiff a m c
  let lo : Int := (a.toNat % 16 : Nat) - (m.toNat % 16 : Nat) - (1 - c.toNat)
  let t := if lo < 0 then d - 0x06 else d
  if d < 0 then t - 0x60 else t

/-- The result of SBC: binary, or decimal when P.D = 1, mod 256 (R132). -/
def sbcResult (decimal : Bool) (a m : Byte) (c : Bool) : Byte :=
  BitVec.ofInt 8 (if decimal then sbcDecimal a m c else sbcDiff a m c)

/-- SBC's overflow test, `((A ^ M) & (A ^ R) & 0x80) != 0` (R132). -/
def sbcOverflow (a m r : Byte) : Bool := ((a ^^^ m) &&& (a ^^^ r) &&& 0x80) != 0

/-- P after ADC or SBC: C, V, and Z and N of the result (R130, R132). -/
def withArithFlags (c v : Bool) (r p : Byte) : Byte := withZN r (withFlag .v v (withFlag .c c p))

/-- P after a compare of a register with M: C = (reg >= M) unsigned, Z and N of the difference (R138 to R140). -/
def withCompareFlags (reg m p : Byte) : Byte := withZN (reg - m) (withFlag .c (decide (m.toNat ≤ reg.toNat)) p)

/-- P after BIT: Z of A and M, N and V bits 7 and 6 of M (R137). -/
def withBitFlags (a m p : Byte) : Byte :=
  withFlag .v (m.getLsbD 6) (withFlag .n (m.getLsbD 7) (withFlag .z (a &&& m == 0) p))

end Sys2Proof.Machine
end

