-- ==== Sys2Proof/WellFormed.lean ====
section
/-! DEFINITION. The checks on instructions and on launch parameters. The checks on a state's memory and alias table stand
beside their operations, in Sys2Proof/Machine/Memory.lean. -/

namespace Sys2Proof

/-- Every instruction is well formed: "Within a defined opcode every value of the operand bytes is legal; there are no
reserved operand values" (spec/30_encoding.md R64), and an operand's width is its type. A (mnemonic, mode) pair that does
not exist is no term of `Instr` (R100). -/
def Instr.wellFormed (_ : Instr) : Bool := true

/-- The allowed values of the open parameters (spec/00_scope.md R8, 92_eei_decisions): 1 <= N, 1 <= CYCW.
JSR_PUSH_OFFSET is 2 or 3 by its type. -/
def Config.wf (c : Config) : Bool := decide (1 ≤ c.busSize) && decide (1 ≤ c.cycWidth)

end Sys2Proof
end

