-- ==== Sys2Proof/Machine/Memory.lean ====
section
/-! DEFINITION. The BUS's storage (spec/10_state.md R17, R18; spec/20_memory.md R30 to R33): lists of (index, value) in one
canonical form, the cells, the alias table, and READ and WRITE through it. -/

namespace Sys2Proof.Machine

/-- The value at an index: the first entry's, or the default where nothing is listed. -/
def Sparse.get {α : Type} (dflt : Nat → α) : List (Nat × α) → Nat → α
  | [], k => dflt k
  | (j, v) :: l, k => if k = j then v else Sparse.get dflt l k

/-- Take every entry of an index out. -/
def Sparse.erase {α : Type} (k : Nat) : List (Nat × α) → List (Nat × α)
  | [] => []
  | (j, v) :: l => if k = j then Sparse.erase k l else (j, v) :: Sparse.erase k l

/-- Put an entry before the first one of a larger index. -/
def Sparse.insert {α : Type} (k : Nat) (v : α) : List (Nat × α) → List (Nat × α)
  | [] => [(k, v)]
  | (j, w) :: l => if k < j then (k, v) :: (j, w) :: l else (j, w) :: Sparse.insert k v l

/-- Set the value at an index, keeping the canonical form: the default is never listed. -/
def Sparse.set {α : Type} [DecidableEq α] (dflt : Nat → α) (l : List (Nat × α)) (k : Nat) (v : α) : List (Nat × α) :=
  if v = dflt k then Sparse.erase k l else Sparse.insert k v (Sparse.erase k l)

/-- The canonical form: indices strictly rising, no entry equal to the default of its index. -/
abbrev Sparse.wf {α : Type} [DecidableEq α] (dflt : Nat → α) (l : List (Nat × α)) : Prop :=
  l.Pairwise (fun e f => e.1 < f.1) ∧ ∀ e ∈ l, e.2 ≠ dflt e.1

/-- What a cell that nothing has written holds. DESIGN CHOICE (log 4), unsafe: the spec leaves the launch image open (R232);
no statement rests on this value, each is about every list of cells. -/
def unlistedByte (_ : Nat) : Byte := 0x00

/-- `cell[i]` (R17). -/
def Memory.cell (m : Memory) (i : Nat) : Byte := Sparse.get unlistedByte m i

/-- `cell[i] <- v` (R32). -/
def Memory.setCell (m : Memory) (i : Nat) (v : Byte) : Memory := Sparse.set unlistedByte m i v

/-- The canonical form of the cells. -/
abbrev Memory.wf (m : Memory) : Prop := Sparse.wf unlistedByte m

/-- `ref[a]` (R18): an unlisted address names its own cell. -/
def AliasTable.ref (t : AliasTable) (a : Nat) : Nat := Sparse.get id t a

/-- `ref[a] <- i` (R36, R37). -/
def AliasTable.setRef (t : AliasTable) (a i : Nat) : AliasTable := Sparse.set id t a i

/-- The canonical form of the alias table. -/
abbrev AliasTable.wf (t : AliasTable) : Prop := Sparse.wf id t

/-- The backing cell an address names: `ref[a]` (R30). -/
def State.ref (s : State) (a : Nat) : Nat := s.refs.ref a

/-- The byte of the canonical cell of an address, `cell[ref[a]]` (R31). -/
def State.peek (s : State) (a : Nat) : Byte := s.cells.cell (s.ref a)

/-- `cell[ref[a]] <- v` (R32). -/
def State.poke (s : State) (a : Nat) (v : Byte) : State := { s with cells := s.cells.setCell (s.ref a) v }

/-- READ (R31): the byte, or none (RANGE_ERROR) at an address at or above N. -/
def State.busRead (s : State) (a : Nat) : Option Byte :=
  if a < s.cfg.busSize then some (s.peek a) else none

/-- WRITE (R32): the state with exactly one cell changed, or none (RANGE_ERROR) at an address at or above N. -/
def State.busWrite (s : State) (a : Nat) (v : Byte) : Option State :=
  if a < s.cfg.busSize then some (s.poke a v) else none

/-- `MemRead(addr, 1)`: a READ made by the CPU (R31, R212). -/
def memRead (addr : Word) (s : State) : Except Fault Byte :=
  match s.busRead addr.toNat with
  | some v => .ok v
  | none => .error (.busError addr)

/-- `MemWrite(addr, 1, v)`: a WRITE made by the CPU (R32, R212). -/
def memWrite (addr : Word) (v : Byte) (s : State) : Except Fault State :=
  match s.busWrite addr.toNat v with
  | some t => .ok t
  | none => .error (.busError addr)

end Sys2Proof.Machine
end

