-- ==== Sys2Proof/Machine/Ops.lean ====
section
/-! DEFINITION. The named operations over registers, flags, stack and program counter that the meanings share
(spec/40_dispatch_addressing.md R82, R96 to R99). There is no exception entry to share: "There is no trap entry"
(spec/60_exceptions.md R217). -/

namespace Sys2Proof.Machine

/-- The 8-bit registers an instruction names (R10, R11). -/
inductive Reg where
  | a
  | x
  | y
  | sp
deriving DecidableEq, Repr

/-- Read a register. -/
def State.reg (s : State) : Reg → Byte
  | .a => s.a
  | .x => s.x
  | .y => s.y
  | .sp => s.sp

/-- Write a register. -/
def State.setReg (s : State) (r : Reg) (v : Byte) : State :=
  match r with
  | .a => { s with a := v }
  | .x => { s with x := v }
  | .y => { s with y := v }
  | .sp => { s with sp := v }

/-- Read a flag of P. -/
def State.flag (s : State) (f : Flag) : Bool := flagOf s.p f

/-- Change P by a function of its value. -/
def State.mapP (s : State) (g : Byte → Byte) : State := { s with p := g s.p }

/-- `SetZN(v)` (R97). -/
def State.setZN (s : State) (v : Byte) : State := s.mapP (withZN v)

/-- `zext_16` (R9). -/
def zext (v : Byte) : Word := v.setWidth 16

/-- `sext_16` (R9). -/
def sext (v : Byte) : Word := v.signExtend 16

/-- `PageCross(a, b)`: the addresses lie in different pages (R96). -/
def pageCross (a b : Word) : Bool := a.hi != b.hi

/-- STACK_BASE + SP (R11, R98; STACK_BASE = 0x0100, R8). -/
def stackAddr (sp : Byte) : Word := 0x0100 + zext sp

/-- `Push(v)` (R98). -/
def push (v : Byte) (s : State) : Except Fault State := do
  let t ← memWrite (stackAddr s.sp) v s
  return t.setReg .sp (s.sp - 1)

/-- `Pop()`: the byte, and the state with SP moved (R98). -/
def pop (s : State) : Except Fault (Byte × State) := do
  let v ← memRead (stackAddr (s.sp + 1)) s
  return (v, s.setReg .sp (s.sp + 1))

/-- What the row of R66 says of an opcode's length and cost. -/
structure Timing where
  /-- Length in bytes. -/
  length : Nat
  /-- Base cycles. -/
  base : Nat
  /-- Marked "+1 on page cross". -/
  crossExtra : Bool
deriving DecidableEq, Repr

/-- `PC <- target; CYC <- (CYC + cost) mod 2^CYCW` (R12, R16). -/
def State.goTo (s : State) (target : Word) (cost : Nat) : State :=
  { s with pc := target, cyc := (s.cyc + cost) % 2 ^ s.cfg.cycWidth }

/-- `Finish(length, base, extra)`: the common tail of every instruction that does not transfer control (R82). -/
def finish (t : Timing) (crossed : Bool) (s : State) : State :=
  s.goTo (s.pc + BitVec.ofNat 16 t.length) (t.base + if t.crossExtra && crossed then 1 else 0)

/-- An instruction either completes with all its effects or ends in a fault with none (R82, R212). -/
def outcome : Except Fault State → Host.Outcome State Fault Refusal
  | .ok s => .next s
  | .error f => .fault f

end Sys2Proof.Machine
end

