-- ==== Sys2Proof/Machine/Operands.lean ====
section
/-! DEFINITION. The addressing modes (spec/40_dispatch_addressing.md R83 to R95): effective addresses, page-cross reports,
operand reads and writes, jump targets. A resolution reads the BUS and writes nothing (R83). Implied (R95) has no operand.
Each type below holds the modes that a kind of instruction can have, so that no unreachable case is left (R100). -/

namespace Sys2Proof.Machine

/-- The modes whose effective location is a BUS cell, with their operand bytes. -/
inductive MemMode where
  | zeroPage (d : Byte)
  | zeroPageX (d : Byte)
  | zeroPageY (d : Byte)
  | absolute (w : Word)
  | absoluteX (w : Word)
  | absoluteY (w : Word)
  | indirectX (d : Byte)
  | indirectY (d : Byte)
deriving DecidableEq, Repr

/-- The 16-bit pointer at zero-page address z; its high byte comes from (z + 1) mod 256 (R92, R93). -/
def zeroPagePointer (z : Byte) (s : State) : Except Fault Word := do
  let lo ← memRead (zext z) s
  let hi ← memRead (zext (z + 1)) s
  return wordOf lo hi

/-- The effective address and whether a page cross is reported (R86 to R90, R92, R93). -/
def effAddr (m : MemMode) (s : State) : Except Fault (Word × Bool) :=
  match m with
  | .zeroPage d => .ok (zext d, false)
  | .zeroPageX d => .ok (zext (d + s.x), false)
  | .zeroPageY d => .ok (zext (d + s.y), false)
  | .absolute w => .ok (w, false)
  | .absoluteX w => .ok (w + zext s.x, pageCross w (w + zext s.x))
  | .absoluteY w => .ok (w + zext s.y, pageCross w (w + zext s.y))
  | .indirectX d => do
    let ea ← zeroPagePointer (d + s.x) s
    return (ea, false)
  | .indirectY d => do
    let base ← zeroPagePointer d s
    return (base + zext s.y, pageCross base (base + zext s.y))

/-- The operand of an instruction that reads a value: an immediate byte (R85) or a cell. -/
inductive Source where
  | imm (v : Byte)
  | mem (m : MemMode)
deriving DecidableEq, Repr

/-- `Resolve` then `ReadOperand`: the operand's value and whether a page cross is reported (R83, R85). -/
def readSource (src : Source) (s : State) : Except Fault (Byte × Bool) :=
  match src with
  | .imm v => .ok (v, false)
  | .mem m => do
    let (ea, crossed) ← effAddr m s
    let v ← memRead ea s
    return (v, crossed)

/-- The operand of an instruction that reads and writes back: A (R84) or a cell. -/
inductive Place where
  | acc
  | mem (m : MemMode)
deriving DecidableEq, Repr

/-- A resolved place: `RegA` or `Cell(ea)` (R83). -/
inductive Loc where
  | regA
  | cell (ea : Word)
deriving DecidableEq, Repr

/-- `Resolve` for a place (R83, R84). -/
def resolvePlace (pl : Place) (s : State) : Except Fault Loc :=
  match pl with
  | .acc => .ok .regA
  | .mem m => do
    let (ea, _) ← effAddr m s
    return .cell ea

/-- `ReadOperand` (R83). -/
def readLoc (loc : Loc) (s : State) : Except Fault Byte :=
  match loc with
  | .regA => .ok s.a
  | .cell ea => memRead ea s

/-- `WriteOperand` (R83). -/
def writeLoc (loc : Loc) (v : Byte) (s : State) : Except Fault State :=
  match loc with
  | .regA => .ok (s.setReg .a v)
  | .cell ea => memWrite ea v s

/-- The operand of an instruction that transfers control: Absolute (R89) and Indirect (R91). -/
inductive JumpMode where
  | absolute (w : Word)
  | indirect (w : Word)
deriving DecidableEq, Repr

/-- `Resolve` to `Target(t)` for JMP and JSR; the pointer's high byte comes from w + 1, also across a page (R89, R91). -/
def jumpTarget (m : JumpMode) (s : State) : Except Fault Word :=
  match m with
  | .absolute w => .ok w
  | .indirect w => do
    let lo ← memRead w s
    let hi ← memRead (w + 1) s
    return wordOf lo hi

/-- The address of the instruction that follows a branch (R94, R170). -/
def branchNext (s : State) : Word := s.pc + 2

/-- `Resolve` to `Target(t)` for Relative mode (R94). -/
def branchTarget (d : Byte) (s : State) : Word := branchNext s + sext d

end Sys2Proof.Machine
end

