-- ==== Sys2Proof/Machine/Arith.lean ====
section
/-! DEFINITION. Arithmetic, logic and compare (spec/42_arithmetic_logic_compare.md R130 to R142). Each meaning carries its row's length, base cycles
and page-cross mark from spec/30_encoding.md R66; the shared operations carry the rules. -/

namespace Sys2Proof.Machine

/-- ADC, binary and decimal (R130, R131). -/
def adc (src : Source) (t : Timing) (s : State) : Host.Outcome State Fault Refusal :=
  outcome do
    let (m, crossed) ← readSource src s
    let sum := adcSum (s.flag .d) s.a m (s.flag .c)
    let r : Byte := BitVec.ofNat 8 sum
    return finish t crossed
      ((s.setReg .a r).mapP (withArithFlags (decide (0xFF < sum)) (adcOverflow s.a m r) r))

/-- SBC, binary and decimal; C is 1 when there is no borrow (R132, R133). -/
def sbc (src : Source) (t : Timing) (s : State) : Host.Outcome State Fault Refusal :=
  outcome do
    let (m, crossed) ← readSource src s
    let r := sbcResult (s.flag .d) s.a m (s.flag .c)
    return finish t crossed
      ((s.setReg .a r).mapP
        (withArithFlags (decide (0 ≤ sbcDiff s.a m (s.flag .c))) (sbcOverflow s.a m r) r))

/-- AND, ORA, EOR: A takes the result; Z and N follow it (R134 to R136). -/
def logic (f : Byte → Byte → Byte) (src : Source) (t : Timing) (s : State) : Host.Outcome State Fault Refusal :=
  outcome do
    let (m, crossed) ← readSource src s
    return finish t crossed ((s.setReg .a (f s.a m)).setZN (f s.a m))

/-- BIT: flags only (R137). -/
def bit (src : Source) (t : Timing) (s : State) : Host.Outcome State Fault Refusal :=
  outcome do
    let (m, crossed) ← readSource src s
    return finish t crossed (s.mapP (withBitFlags s.a m))

/-- CMP, CPX, CPY: flags only, binary also in decimal mode (R138 to R140). -/
def compareWith (r : Reg) (src : Source) (t : Timing) (s : State) : Host.Outcome State Fault Refusal :=
  outcome do
    let (m, crossed) ← readSource src s
    return finish t crossed (s.mapP (withCompareFlags (s.reg r) m))

/-- ADC Immediate, 0x69 (R130): add with carry. -/
def execAdcImm (v : Byte) (s : State) : Host.Outcome State Fault Refusal :=
  adc (.imm v) ⟨2, 2, false⟩ s

/-- ADC ZeroPage, 0x65 (R130): add with carry. -/
def execAdcZp (d : Byte) (s : State) : Host.Outcome State Fault Refusal :=
  adc (.mem (.zeroPage d)) ⟨2, 3, false⟩ s

/-- ADC ZeroPage,X, 0x75 (R130): add with carry. -/
def execAdcZpX (d : Byte) (s : State) : Host.Outcome State Fault Refusal :=
  adc (.mem (.zeroPageX d)) ⟨2, 4, false⟩ s

/-- ADC Absolute, 0x6D (R130): add with carry. -/
def execAdcAbs (w : Word) (s : State) : Host.Outcome State Fault Refusal :=
  adc (.mem (.absolute w)) ⟨3, 4, false⟩ s

/-- ADC Absolute,X, 0x7D (R130): add with carry. -/
def execAdcAbsX (w : Word) (s : State) : Host.Outcome State Fault Refusal :=
  adc (.mem (.absoluteX w)) ⟨3, 4, true⟩ s

/-- ADC Absolute,Y, 0x79 (R130): add with carry. -/
def execAdcAbsY (w : Word) (s : State) : Host.Outcome State Fault Refusal :=
  adc (.mem (.absoluteY w)) ⟨3, 4, true⟩ s

/-- ADC Indirect,X, 0x61 (R130): add with carry. -/
def execAdcIndX (d : Byte) (s : State) : Host.Outcome State Fault Refusal :=
  adc (.mem (.indirectX d)) ⟨2, 6, false⟩ s

/-- ADC Indirect,Y, 0x71 (R130): add with carry. -/
def execAdcIndY (d : Byte) (s : State) : Host.Outcome State Fault Refusal :=
  adc (.mem (.indirectY d)) ⟨2, 5, true⟩ s

/-- SBC Immediate, 0xE9 (R132): subtract with borrow. -/
def execSbcImm (v : Byte) (s : State) : Host.Outcome State Fault Refusal :=
  sbc (.imm v) ⟨2, 2, false⟩ s

/-- SBC ZeroPage, 0xE5 (R132): subtract with borrow. -/
def execSbcZp (d : Byte) (s : State) : Host.Outcome State Fault Refusal :=
  sbc (.mem (.zeroPage d)) ⟨2, 3, false⟩ s

/-- SBC ZeroPage,X, 0xF5 (R132): subtract with borrow. -/
def execSbcZpX (d : Byte) (s : State) : Host.Outcome State Fault Refusal :=
  sbc (.mem (.zeroPageX d)) ⟨2, 4, false⟩ s

/-- SBC Absolute, 0xED (R132): subtract with borrow. -/
def execSbcAbs (w : Word) (s : State) : Host.Outcome State Fault Refusal :=
  sbc (.mem (.absolute w)) ⟨3, 4, false⟩ s

/-- SBC Absolute,X, 0xFD (R132): subtract with borrow. -/
def execSbcAbsX (w : Word) (s : State) : Host.Outcome State Fault Refusal :=
  sbc (.mem (.absoluteX w)) ⟨3, 4, true⟩ s

/-- SBC Absolute,Y, 0xF9 (R132): subtract with borrow. -/
def execSbcAbsY (w : Word) (s : State) : Host.Outcome State Fault Refusal :=
  sbc (.mem (.absoluteY w)) ⟨3, 4, true⟩ s

/-- SBC Indirect,X, 0xE1 (R132): subtract with borrow. -/
def execSbcIndX (d : Byte) (s : State) : Host.Outcome State Fault Refusal :=
  sbc (.mem (.indirectX d)) ⟨2, 6, false⟩ s

/-- SBC Indirect,Y, 0xF1 (R132): subtract with borrow. -/
def execSbcIndY (d : Byte) (s : State) : Host.Outcome State Fault Refusal :=
  sbc (.mem (.indirectY d)) ⟨2, 5, true⟩ s

/-- AND Immediate, 0x29 (R134): and. -/
def execAndImm (v : Byte) (s : State) : Host.Outcome State Fault Refusal :=
  logic (fun a m => a &&& m) (.imm v) ⟨2, 2, false⟩ s

/-- AND ZeroPage, 0x25 (R134): and. -/
def execAndZp (d : Byte) (s : State) : Host.Outcome State Fault Refusal :=
  logic (fun a m => a &&& m) (.mem (.zeroPage d)) ⟨2, 3, false⟩ s

/-- AND ZeroPage,X, 0x35 (R134): and. -/
def execAndZpX (d : Byte) (s : State) : Host.Outcome State Fault Refusal :=
  logic (fun a m => a &&& m) (.mem (.zeroPageX d)) ⟨2, 4, false⟩ s

/-- AND Absolute, 0x2D (R134): and. -/
def execAndAbs (w : Word) (s : State) : Host.Outcome State Fault Refusal :=
  logic (fun a m => a &&& m) (.mem (.absolute w)) ⟨3, 4, false⟩ s

/-- AND Absolute,X, 0x3D (R134): and. -/
def execAndAbsX (w : Word) (s : State) : Host.Outcome State Fault Refusal :=
  logic (fun a m => a &&& m) (.mem (.absoluteX w)) ⟨3, 4, true⟩ s

/-- AND Absolute,Y, 0x39 (R134): and. -/
def execAndAbsY (w : Word) (s : State) : Host.Outcome State Fault Refusal :=
  logic (fun a m => a &&& m) (.mem (.absoluteY w)) ⟨3, 4, true⟩ s

/-- AND Indirect,X, 0x21 (R134): and. -/
def execAndIndX (d : Byte) (s : State) : Host.Outcome State Fault Refusal :=
  logic (fun a m => a &&& m) (.mem (.indirectX d)) ⟨2, 6, false⟩ s

/-- AND Indirect,Y, 0x31 (R134): and. -/
def execAndIndY (d : Byte) (s : State) : Host.Outcome State Fault Refusal :=
  logic (fun a m => a &&& m) (.mem (.indirectY d)) ⟨2, 5, true⟩ s

/-- ORA Immediate, 0x09 (R135): or. -/
def execOraImm (v : Byte) (s : State) : Host.Outcome State Fault Refusal :=
  logic (fun a m => a ||| m) (.imm v) ⟨2, 2, false⟩ s

/-- ORA ZeroPage, 0x05 (R135): or. -/
def execOraZp (d : Byte) (s : State) : Host.Outcome State Fault Refusal :=
  logic (fun a m => a ||| m) (.mem (.zeroPage d)) ⟨2, 3, false⟩ s

/-- ORA ZeroPage,X, 0x15 (R135): or. -/
def execOraZpX (d : Byte) (s : State) : Host.Outcome State Fault Refusal :=
  logic (fun a m => a ||| m) (.mem (.zeroPageX d)) ⟨2, 4, false⟩ s

/-- ORA Absolute, 0x0D (R135): or. -/
def execOraAbs (w : Word) (s : State) : Host.Outcome State Fault Refusal :=
  logic (fun a m => a ||| m) (.mem (.absolute w)) ⟨3, 4, false⟩ s

/-- ORA Absolute,X, 0x1D (R135): or. -/
def execOraAbsX (w : Word) (s : State) : Host.Outcome State Fault Refusal :=
  logic (fun a m => a ||| m) (.mem (.absoluteX w)) ⟨3, 4, true⟩ s

/-- ORA Absolute,Y, 0x19 (R135): or. -/
def execOraAbsY (w : Word) (s : State) : Host.Outcome State Fault Refusal :=
  logic (fun a m => a ||| m) (.mem (.absoluteY w)) ⟨3, 4, true⟩ s

/-- ORA Indirect,X, 0x01 (R135): or. -/
def execOraIndX (d : Byte) (s : State) : Host.Outcome State Fault Refusal :=
  logic (fun a m => a ||| m) (.mem (.indirectX d)) ⟨2, 6, false⟩ s

/-- ORA Indirect,Y, 0x11 (R135): or. -/
def execOraIndY (d : Byte) (s : State) : Host.Outcome State Fault Refusal :=
  logic (fun a m => a ||| m) (.mem (.indirectY d)) ⟨2, 5, true⟩ s

/-- EOR Immediate, 0x49 (R136): exclusive or. -/
def execEorImm (v : Byte) (s : State) : Host.Outcome State Fault Refusal :=
  logic (fun a m => a ^^^ m) (.imm v) ⟨2, 2, false⟩ s

/-- EOR ZeroPage, 0x45 (R136): exclusive or. -/
def execEorZp (d : Byte) (s : State) : Host.Outcome State Fault Refusal :=
  logic (fun a m => a ^^^ m) (.mem (.zeroPage d)) ⟨2, 3, false⟩ s

/-- EOR ZeroPage,X, 0x55 (R136): exclusive or. -/
def execEorZpX (d : Byte) (s : State) : Host.Outcome State Fault Refusal :=
  logic (fun a m => a ^^^ m) (.mem (.zeroPageX d)) ⟨2, 4, false⟩ s

/-- EOR Absolute, 0x4D (R136): exclusive or. -/
def execEorAbs (w : Word) (s : State) : Host.Outcome State Fault Refusal :=
  logic (fun a m => a ^^^ m) (.mem (.absolute w)) ⟨3, 4, false⟩ s

/-- EOR Absolute,X, 0x5D (R136): exclusive or. -/
def execEorAbsX (w : Word) (s : State) : Host.Outcome State Fault Refusal :=
  logic (fun a m => a ^^^ m) (.mem (.absoluteX w)) ⟨3, 4, true⟩ s

/-- EOR Absolute,Y, 0x59 (R136): exclusive or. -/
def execEorAbsY (w : Word) (s : State) : Host.Outcome State Fault Refusal :=
  logic (fun a m => a ^^^ m) (.mem (.absoluteY w)) ⟨3, 4, true⟩ s

/-- EOR Indirect,X, 0x41 (R136): exclusive or. -/
def execEorIndX (d : Byte) (s : State) : Host.Outcome State Fault Refusal :=
  logic (fun a m => a ^^^ m) (.mem (.indirectX d)) ⟨2, 6, false⟩ s

/-- EOR Indirect,Y, 0x51 (R136): exclusive or. -/
def execEorIndY (d : Byte) (s : State) : Host.Outcome State Fault Refusal :=
  logic (fun a m => a ^^^ m) (.mem (.indirectY d)) ⟨2, 5, true⟩ s

/-- BIT ZeroPage, 0x24 (R137): test bits. -/
def execBitZp (d : Byte) (s : State) : Host.Outcome State Fault Refusal :=
  bit (.mem (.zeroPage d)) ⟨2, 3, false⟩ s

/-- BIT Absolute, 0x2C (R137): test bits. -/
def execBitAbs (w : Word) (s : State) : Host.Outcome State Fault Refusal :=
  bit (.mem (.absolute w)) ⟨3, 4, false⟩ s

/-- CMP Immediate, 0xC9 (R138): compare with A. -/
def execCmpImm (v : Byte) (s : State) : Host.Outcome State Fault Refusal :=
  compareWith .a (.imm v) ⟨2, 2, false⟩ s

/-- CMP ZeroPage, 0xC5 (R138): compare with A. -/
def execCmpZp (d : Byte) (s : State) : Host.Outcome State Fault Refusal :=
  compareWith .a (.mem (.zeroPage d)) ⟨2, 3, false⟩ s

/-- CMP ZeroPage,X, 0xD5 (R138): compare with A. -/
def execCmpZpX (d : Byte) (s : State) : Host.Outcome State Fault Refusal :=
  compareWith .a (.mem (.zeroPageX d)) ⟨2, 4, false⟩ s

/-- CMP Absolute, 0xCD (R138): compare with A. -/
def execCmpAbs (w : Word) (s : State) : Host.Outcome State Fault Refusal :=
  compareWith .a (.mem (.absolute w)) ⟨3, 4, false⟩ s

/-- CMP Absolute,X, 0xDD (R138): compare with A. -/
def execCmpAbsX (w : Word) (s : State) : Host.Outcome State Fault Refusal :=
  compareWith .a (.mem (.absoluteX w)) ⟨3, 4, true⟩ s

/-- CMP Absolute,Y, 0xD9 (R138): compare with A. -/
def execCmpAbsY (w : Word) (s : State) : Host.Outcome State Fault Refusal :=
  compareWith .a (.mem (.absoluteY w)) ⟨3, 4, true⟩ s

/-- CMP Indirect,X, 0xC1 (R138): compare with A. -/
def execCmpIndX (d : Byte) (s : State) : Host.Outcome State Fault Refusal :=
  compareWith .a (.mem (.indirectX d)) ⟨2, 6, false⟩ s

/-- CMP Indirect,Y, 0xD1 (R138): compare with A. -/
def execCmpIndY (d : Byte) (s : State) : Host.Outcome State Fault Refusal :=
  compareWith .a (.mem (.indirectY d)) ⟨2, 5, true⟩ s

/-- CPX Immediate, 0xE0 (R139): compare with X. -/
def execCpxImm (v : Byte) (s : State) : Host.Outcome State Fault Refusal :=
  compareWith .x (.imm v) ⟨2, 2, false⟩ s

/-- CPX ZeroPage, 0xE4 (R139): compare with X. -/
def execCpxZp (d : Byte) (s : State) : Host.Outcome State Fault Refusal :=
  compareWith .x (.mem (.zeroPage d)) ⟨2, 3, false⟩ s

/-- CPX Absolute, 0xEC (R139): compare with X. -/
def execCpxAbs (w : Word) (s : State) : Host.Outcome State Fault Refusal :=
  compareWith .x (.mem (.absolute w)) ⟨3, 4, false⟩ s

/-- CPY Immediate, 0xC0 (R140): compare with Y. -/
def execCpyImm (v : Byte) (s : State) : Host.Outcome State Fault Refusal :=
  compareWith .y (.imm v) ⟨2, 2, false⟩ s

/-- CPY ZeroPage, 0xC4 (R140): compare with Y. -/
def execCpyZp (d : Byte) (s : State) : Host.Outcome State Fault Refusal :=
  compareWith .y (.mem (.zeroPage d)) ⟨2, 3, false⟩ s

/-- CPY Absolute, 0xCC (R140): compare with Y. -/
def execCpyAbs (w : Word) (s : State) : Host.Outcome State Fault Refusal :=
  compareWith .y (.mem (.absolute w)) ⟨3, 4, false⟩ s

end Sys2Proof.Machine
end

