-- ==== Sys2Proof/Machine/Control.lean ====
section
/-! DEFINITION. Branches, jumps, subroutines and returns (spec/44_branch_jump_subroutine.md R170 to R183). Each meaning carries its row's length, base cycles
and page-cross mark from spec/30_encoding.md R66; the shared operations carry the rules. -/

namespace Sys2Proof.Machine

/-- The eight branches: 2 cycles not taken, 3 taken, 4 taken to another page than the next instruction's (R170). -/
def branch (cond : Bool) (d : Byte) (s : State) : Host.Outcome State Fault Refusal :=
  if cond then
    .next (s.goTo (branchTarget d s) (2 + if pageCross (branchNext s) (branchTarget d s) then 2 else 1))
  else
    .next (s.goTo (branchNext s) 2)

/-- JMP (R179). -/
def jump (m : JumpMode) (base : Nat) (s : State) : Host.Outcome State Fault Refusal :=
  outcome do
    let t ← jumpTarget m s
    return s.goTo t base

/-- JSR_PUSH_OFFSET as a number (R180). -/
def pushOffset : JsrPushOffset → Word
  | .two => 2
  | .three => 3

/-- What JSR pushes (R180). -/
def returnAddress (s : State) : Word := s.pc + pushOffset s.cfg.jsrPushOffset

/-- JSR: push the return address, high byte then low byte, and go to the target (R180). -/
def callSubroutine (m : JumpMode) (base : Nat) (s : State) : Host.Outcome State Fault Refusal :=
  outcome do
    let t ← jumpTarget m s
    let s1 ← push (returnAddress s).hi s
    let s2 ← push (returnAddress s).lo s1
    return s2.goTo t base

/-- RTS: pop the low byte, then the high byte; the popped address plus 3 - JSR_PUSH_OFFSET (R181). -/
def returnFromSubroutine (base : Nat) (s : State) : Host.Outcome State Fault Refusal :=
  outcome do
    let (lo, s1) ← pop s
    let (hi, s2) ← pop s1
    return s2.goTo (wordOf lo hi + (3 - pushOffset s.cfg.jsrPushOffset)) base

/-- RTI, the return that pops what software pushed: P through WriteP, then PC low byte first, unadjusted (R182, R218). -/
def returnFromInterrupt (base : Nat) (s : State) : Host.Outcome State Fault Refusal :=
  outcome do
    let (p, s1) ← pop s
    let (lo, s2) ← pop s1
    let (hi, s3) ← pop s2
    return (s3.mapP fun _ => statusByte p).goTo (wordOf lo hi) base

/-- BCC, 0x90 (R171): branch on C = 0. -/
def execBcc (d : Byte) (s : State) : Host.Outcome State Fault Refusal :=
  branch (!s.flag .c) d s

/-- BCS, 0xB0 (R172): branch on C = 1. -/
def execBcs (d : Byte) (s : State) : Host.Outcome State Fault Refusal :=
  branch (s.flag .c) d s

/-- BEQ, 0xF0 (R173): branch on Z = 1. -/
def execBeq (d : Byte) (s : State) : Host.Outcome State Fault Refusal :=
  branch (s.flag .z) d s

/-- BMI, 0x30 (R174): branch on N = 1. -/
def execBmi (d : Byte) (s : State) : Host.Outcome State Fault Refusal :=
  branch (s.flag .n) d s

/-- BNE, 0xD0 (R175): branch on Z = 0. -/
def execBne (d : Byte) (s : State) : Host.Outcome State Fault Refusal :=
  branch (!s.flag .z) d s

/-- BPL, 0x10 (R176): branch on N = 0. -/
def execBpl (d : Byte) (s : State) : Host.Outcome State Fault Refusal :=
  branch (!s.flag .n) d s

/-- BVC, 0x50 (R177): branch on V = 0. -/
def execBvc (d : Byte) (s : State) : Host.Outcome State Fault Refusal :=
  branch (!s.flag .v) d s

/-- BVS, 0x70 (R178): branch on V = 1. -/
def execBvs (d : Byte) (s : State) : Host.Outcome State Fault Refusal :=
  branch (s.flag .v) d s

/-- JMP Absolute, 0x4C (R179): jump. -/
def execJmpAbs (w : Word) (s : State) : Host.Outcome State Fault Refusal :=
  jump (.absolute w) 3 s

/-- JMP Indirect, 0x6C (R179): jump. -/
def execJmpInd (w : Word) (s : State) : Host.Outcome State Fault Refusal :=
  jump (.indirect w) 5 s

/-- JSR Absolute, 0x20 (R180): call. -/
def execJsr (w : Word) (s : State) : Host.Outcome State Fault Refusal :=
  callSubroutine (.absolute w) 6 s

/-- RTS, 0x60 (R181): return. -/
def execRts (s : State) : Host.Outcome State Fault Refusal :=
  returnFromSubroutine 6 s

/-- RTI, 0x40 (R182): return from interrupt. -/
def execRti (s : State) : Host.Outcome State Fault Refusal :=
  returnFromInterrupt 6 s

end Sys2Proof.Machine
end

