-- ==== Sys2Proof/Machine/LoadStore.lean ====
section
/-! DEFINITION. Loads, stores and register transfers (spec/41_load_store_transfer.md R110 to R122). Each meaning carries its row's length, base cycles
and page-cross mark from spec/30_encoding.md R66; the shared operations carry the rules. -/

namespace Sys2Proof.Machine

/-- Loads: the register takes the operand; Z and N follow it (R110 to R112). -/
def load (r : Reg) (src : Source) (t : Timing) (s : State) : Host.Outcome State Fault Refusal :=
  outcome do
    let (v, crossed) ← readSource src s
    return finish t crossed ((s.setReg r v).setZN v)

/-- Stores: the cell takes the register; no flag changes, and no data read is made (R113 to R115). -/
def store (r : Reg) (m : MemMode) (t : Timing) (s : State) : Host.Outcome State Fault Refusal :=
  outcome do
    let (ea, crossed) ← effAddr m s
    let s' ← memWrite ea (s.reg r) s
    return finish t crossed s'

/-- Transfers that set Z and N (R116 to R120). -/
def transfer (src dst : Reg) (t : Timing) (s : State) : Host.Outcome State Fault Refusal :=
  .next (finish t false ((s.setReg dst (s.reg src)).setZN (s.reg src)))

/-- LDA Immediate, 0xA9 (R110): load A. -/
def execLdaImm (v : Byte) (s : State) : Host.Outcome State Fault Refusal :=
  load .a (.imm v) ⟨2, 2, false⟩ s

/-- LDA ZeroPage, 0xA5 (R110): load A. -/
def execLdaZp (d : Byte) (s : State) : Host.Outcome State Fault Refusal :=
  load .a (.mem (.zeroPage d)) ⟨2, 3, false⟩ s

/-- LDA ZeroPage,X, 0xB5 (R110): load A. -/
def execLdaZpX (d : Byte) (s : State) : Host.Outcome State Fault Refusal :=
  load .a (.mem (.zeroPageX d)) ⟨2, 4, false⟩ s

/-- LDA Absolute, 0xAD (R110): load A. -/
def execLdaAbs (w : Word) (s : State) : Host.Outcome State Fault Refusal :=
  load .a (.mem (.absolute w)) ⟨3, 4, false⟩ s

/-- LDA Absolute,X, 0xBD (R110): load A. -/
def execLdaAbsX (w : Word) (s : State) : Host.Outcome State Fault Refusal :=
  load .a (.mem (.absoluteX w)) ⟨3, 4, true⟩ s

/-- LDA Absolute,Y, 0xB9 (R110): load A. -/
def execLdaAbsY (w : Word) (s : State) : Host.Outcome State Fault Refusal :=
  load .a (.mem (.absoluteY w)) ⟨3, 4, true⟩ s

/-- LDA Indirect,X, 0xA1 (R110): load A. -/
def execLdaIndX (d : Byte) (s : State) : Host.Outcome State Fault Refusal :=
  load .a (.mem (.indirectX d)) ⟨2, 6, false⟩ s

/-- LDA Indirect,Y, 0xB1 (R110): load A. -/
def execLdaIndY (d : Byte) (s : State) : Host.Outcome State Fault Refusal :=
  load .a (.mem (.indirectY d)) ⟨2, 5, true⟩ s

/-- LDX Immediate, 0xA2 (R111): load X. -/
def execLdxImm (v : Byte) (s : State) : Host.Outcome State Fault Refusal :=
  load .x (.imm v) ⟨2, 2, false⟩ s

/-- LDX ZeroPage, 0xA6 (R111): load X. -/
def execLdxZp (d : Byte) (s : State) : Host.Outcome State Fault Refusal :=
  load .x (.mem (.zeroPage d)) ⟨2, 3, false⟩ s

/-- LDX ZeroPage,Y, 0xB6 (R111): load X. -/
def execLdxZpY (d : Byte) (s : State) : Host.Outcome State Fault Refusal :=
  load .x (.mem (.zeroPageY d)) ⟨2, 4, false⟩ s

/-- LDX Absolute, 0xAE (R111): load X. -/
def execLdxAbs (w : Word) (s : State) : Host.Outcome State Fault Refusal :=
  load .x (.mem (.absolute w)) ⟨3, 4, false⟩ s

/-- LDX Absolute,Y, 0xBE (R111): load X. -/
def execLdxAbsY (w : Word) (s : State) : Host.Outcome State Fault Refusal :=
  load .x (.mem (.absoluteY w)) ⟨3, 4, true⟩ s

/-- LDY Immediate, 0xA0 (R112): load Y. -/
def execLdyImm (v : Byte) (s : State) : Host.Outcome State Fault Refusal :=
  load .y (.imm v) ⟨2, 2, false⟩ s

/-- LDY ZeroPage, 0xA4 (R112): load Y. -/
def execLdyZp (d : Byte) (s : State) : Host.Outcome State Fault Refusal :=
  load .y (.mem (.zeroPage d)) ⟨2, 3, false⟩ s

/-- LDY ZeroPage,X, 0xB4 (R112): load Y. -/
def execLdyZpX (d : Byte) (s : State) : Host.Outcome State Fault Refusal :=
  load .y (.mem (.zeroPageX d)) ⟨2, 4, false⟩ s

/-- LDY Absolute, 0xAC (R112): load Y. -/
def execLdyAbs (w : Word) (s : State) : Host.Outcome State Fault Refusal :=
  load .y (.mem (.absolute w)) ⟨3, 4, false⟩ s

/-- LDY Absolute,X, 0xBC (R112): load Y. -/
def execLdyAbsX (w : Word) (s : State) : Host.Outcome State Fault Refusal :=
  load .y (.mem (.absoluteX w)) ⟨3, 4, true⟩ s

/-- STA ZeroPage, 0x85 (R113): store A. -/
def execStaZp (d : Byte) (s : State) : Host.Outcome State Fault Refusal :=
  store .a (.zeroPage d) ⟨2, 3, false⟩ s

/-- STA ZeroPage,X, 0x95 (R113): store A. -/
def execStaZpX (d : Byte) (s : State) : Host.Outcome State Fault Refusal :=
  store .a (.zeroPageX d) ⟨2, 4, false⟩ s

/-- STA Absolute, 0x8D (R113): store A. -/
def execStaAbs (w : Word) (s : State) : Host.Outcome State Fault Refusal :=
  store .a (.absolute w) ⟨3, 4, false⟩ s

/-- STA Absolute,X, 0x9D (R113): store A. -/
def execStaAbsX (w : Word) (s : State) : Host.Outcome State Fault Refusal :=
  store .a (.absoluteX w) ⟨3, 5, false⟩ s

/-- STA Absolute,Y, 0x99 (R113): store A. -/
def execStaAbsY (w : Word) (s : State) : Host.Outcome State Fault Refusal :=
  store .a (.absoluteY w) ⟨3, 5, false⟩ s

/-- STA Indirect,X, 0x81 (R113): store A. -/
def execStaIndX (d : Byte) (s : State) : Host.Outcome State Fault Refusal :=
  store .a (.indirectX d) ⟨2, 6, false⟩ s

/-- STA Indirect,Y, 0x91 (R113): store A. -/
def execStaIndY (d : Byte) (s : State) : Host.Outcome State Fault Refusal :=
  store .a (.indirectY d) ⟨2, 6, false⟩ s

/-- STX ZeroPage, 0x86 (R114): store X. -/
def execStxZp (d : Byte) (s : State) : Host.Outcome State Fault Refusal :=
  store .x (.zeroPage d) ⟨2, 3, false⟩ s

/-- STX ZeroPage,Y, 0x96 (R114): store X. -/
def execStxZpY (d : Byte) (s : State) : Host.Outcome State Fault Refusal :=
  store .x (.zeroPageY d) ⟨2, 4, false⟩ s

/-- STX Absolute, 0x8E (R114): store X. -/
def execStxAbs (w : Word) (s : State) : Host.Outcome State Fault Refusal :=
  store .x (.absolute w) ⟨3, 4, false⟩ s

/-- STY ZeroPage, 0x84 (R115): store Y. -/
def execStyZp (d : Byte) (s : State) : Host.Outcome State Fault Refusal :=
  store .y (.zeroPage d) ⟨2, 3, false⟩ s

/-- STY ZeroPage,X, 0x94 (R115): store Y. -/
def execStyZpX (d : Byte) (s : State) : Host.Outcome State Fault Refusal :=
  store .y (.zeroPageX d) ⟨2, 4, false⟩ s

/-- STY Absolute, 0x8C (R115): store Y. -/
def execStyAbs (w : Word) (s : State) : Host.Outcome State Fault Refusal :=
  store .y (.absolute w) ⟨3, 4, false⟩ s

/-- TAX, 0xAA (R116): A to X. -/
def execTax (s : State) : Host.Outcome State Fault Refusal :=
  transfer .a .x ⟨1, 2, false⟩ s

/-- TAY, 0xA8 (R117): A to Y. -/
def execTay (s : State) : Host.Outcome State Fault Refusal :=
  transfer .a .y ⟨1, 2, false⟩ s

/-- TXA, 0x8A (R118): X to A. -/
def execTxa (s : State) : Host.Outcome State Fault Refusal :=
  transfer .x .a ⟨1, 2, false⟩ s

/-- TYA, 0x98 (R119): Y to A. -/
def execTya (s : State) : Host.Outcome State Fault Refusal :=
  transfer .y .a ⟨1, 2, false⟩ s

/-- TSX, 0xBA (R120): SP to X. -/
def execTsx (s : State) : Host.Outcome State Fault Refusal :=
  transfer .sp .x ⟨1, 2, false⟩ s

/-- TXS, 0x9A (R121): X to SP; the one transfer that leaves Z and N alone. -/
def execTxs (s : State) : Host.Outcome State Fault Refusal :=
  .next (finish ⟨1, 2, false⟩ false (s.setReg .sp s.x))

end Sys2Proof.Machine
end

