-- ==== Sys2Proof/Machine/Shift.lean ====
section
/-! DEFINITION. Shifts, rotates, increments and decrements (spec/43_shift_rotate_incdec.md R150 to R160). Each meaning carries its row's length, base cycles
and page-cross mark from spec/30_encoding.md R66; the shared operations carry the rules. -/

namespace Sys2Proof.Machine

/-- ASL: the result and the bit shifted out (R150); the old carry is not used. -/
def aslByte (_ : Bool) (v : Byte) : Byte × Bool := (v <<< 1, v.getLsbD 7)

/-- LSR: the result and the bit shifted out (R151); the old carry is not used. -/
def lsrByte (_ : Bool) (v : Byte) : Byte × Bool := (v >>> 1, v.getLsbD 0)

/-- ROL: the old carry enters bit 0, bit 7 becomes the carry (R152). -/
def rolByte (c : Bool) (v : Byte) : Byte × Bool := ((v <<< 1) ||| BitVec.ofNat 8 c.toNat, v.getLsbD 7)

/-- ROR: the old carry enters bit 7, bit 0 becomes the carry (R153). -/
def rorByte (c : Bool) (v : Byte) : Byte × Bool := ((v >>> 1) ||| (BitVec.ofNat 8 c.toNat <<< 7), v.getLsbD 0)

/-- Shifts and rotates, on A or on a cell through one path: one read, then one write at the same place; C takes the bit
shifted out, Z and N follow the result (R82 (f), R150 to R153, R160). -/
def shift (f : Bool → Byte → Byte × Bool) (pl : Place) (t : Timing) (s : State) : Host.Outcome State Fault Refusal :=
  outcome do
    let loc ← resolvePlace pl s
    let v ← readLoc loc s
    let (r, out) := f (s.flag .c) v
    let s' ← writeLoc loc r s
    return finish t false ((s'.mapP (withFlag .c out)).setZN r)

/-- INC and DEC: add to a cell mod 256; Z and N follow the result, C and V stay (R154, R155). -/
def addToCell (k : Byte) (m : MemMode) (t : Timing) (s : State) : Host.Outcome State Fault Refusal :=
  outcome do
    let (ea, _) ← effAddr m s
    let v ← memRead ea s
    let s' ← memWrite ea (v + k) s
    return finish t false (s'.setZN (v + k))

/-- INX, INY, DEX, DEY: add to a register mod 256; Z and N follow the result, C and V stay (R156 to R159). -/
def addToReg (k : Byte) (r : Reg) (t : Timing) (s : State) : Host.Outcome State Fault Refusal :=
  .next (finish t false ((s.setReg r (s.reg r + k)).setZN (s.reg r + k)))

/-- ASL Accumulator, 0x0A (R150): shift left. -/
def execAslAcc (s : State) : Host.Outcome State Fault Refusal :=
  shift aslByte .acc ⟨1, 2, false⟩ s

/-- ASL ZeroPage, 0x06 (R150): shift left. -/
def execAslZp (d : Byte) (s : State) : Host.Outcome State Fault Refusal :=
  shift aslByte (.mem (.zeroPage d)) ⟨2, 5, false⟩ s

/-- ASL ZeroPage,X, 0x16 (R150): shift left. -/
def execAslZpX (d : Byte) (s : State) : Host.Outcome State Fault Refusal :=
  shift aslByte (.mem (.zeroPageX d)) ⟨2, 6, false⟩ s

/-- ASL Absolute, 0x0E (R150): shift left. -/
def execAslAbs (w : Word) (s : State) : Host.Outcome State Fault Refusal :=
  shift aslByte (.mem (.absolute w)) ⟨3, 6, false⟩ s

/-- ASL Absolute,X, 0x1E (R150): shift left. -/
def execAslAbsX (w : Word) (s : State) : Host.Outcome State Fault Refusal :=
  shift aslByte (.mem (.absoluteX w)) ⟨3, 7, false⟩ s

/-- LSR Accumulator, 0x4A (R151): shift right. -/
def execLsrAcc (s : State) : Host.Outcome State Fault Refusal :=
  shift lsrByte .acc ⟨1, 2, false⟩ s

/-- LSR ZeroPage, 0x46 (R151): shift right. -/
def execLsrZp (d : Byte) (s : State) : Host.Outcome State Fault Refusal :=
  shift lsrByte (.mem (.zeroPage d)) ⟨2, 5, false⟩ s

/-- LSR ZeroPage,X, 0x56 (R151): shift right. -/
def execLsrZpX (d : Byte) (s : State) : Host.Outcome State Fault Refusal :=
  shift lsrByte (.mem (.zeroPageX d)) ⟨2, 6, false⟩ s

/-- LSR Absolute, 0x4E (R151): shift right. -/
def execLsrAbs (w : Word) (s : State) : Host.Outcome State Fault Refusal :=
  shift lsrByte (.mem (.absolute w)) ⟨3, 6, false⟩ s

/-- LSR Absolute,X, 0x5E (R151): shift right. -/
def execLsrAbsX (w : Word) (s : State) : Host.Outcome State Fault Refusal :=
  shift lsrByte (.mem (.absoluteX w)) ⟨3, 7, false⟩ s

/-- ROL Accumulator, 0x2A (R152): rotate left. -/
def execRolAcc (s : State) : Host.Outcome State Fault Refusal :=
  shift rolByte .acc ⟨1, 2, false⟩ s

/-- ROL ZeroPage, 0x26 (R152): rotate left. -/
def execRolZp (d : Byte) (s : State) : Host.Outcome State Fault Refusal :=
  shift rolByte (.mem (.zeroPage d)) ⟨2, 5, false⟩ s

/-- ROL ZeroPage,X, 0x36 (R152): rotate left. -/
def execRolZpX (d : Byte) (s : State) : Host.Outcome State Fault Refusal :=
  shift rolByte (.mem (.zeroPageX d)) ⟨2, 6, false⟩ s

/-- ROL Absolute, 0x2E (R152): rotate left. -/
def execRolAbs (w : Word) (s : State) : Host.Outcome State Fault Refusal :=
  shift rolByte (.mem (.absolute w)) ⟨3, 6, false⟩ s

/-- ROL Absolute,X, 0x3E (R152): rotate left. -/
def execRolAbsX (w : Word) (s : State) : Host.Outcome State Fault Refusal :=
  shift rolByte (.mem (.absoluteX w)) ⟨3, 7, false⟩ s

/-- ROR Accumulator, 0x6A (R153): rotate right. -/
def execRorAcc (s : State) : Host.Outcome State Fault Refusal :=
  shift rorByte .acc ⟨1, 2, false⟩ s

/-- ROR ZeroPage, 0x66 (R153): rotate right. -/
def execRorZp (d : Byte) (s : State) : Host.Outcome State Fault Refusal :=
  shift rorByte (.mem (.zeroPage d)) ⟨2, 5, false⟩ s

/-- ROR ZeroPage,X, 0x76 (R153): rotate right. -/
def execRorZpX (d : Byte) (s : State) : Host.Outcome State Fault Refusal :=
  shift rorByte (.mem (.zeroPageX d)) ⟨2, 6, false⟩ s

/-- ROR Absolute, 0x6E (R153): rotate right. -/
def execRorAbs (w : Word) (s : State) : Host.Outcome State Fault Refusal :=
  shift rorByte (.mem (.absolute w)) ⟨3, 6, false⟩ s

/-- ROR Absolute,X, 0x7E (R153): rotate right. -/
def execRorAbsX (w : Word) (s : State) : Host.Outcome State Fault Refusal :=
  shift rorByte (.mem (.absoluteX w)) ⟨3, 7, false⟩ s

/-- INC ZeroPage, 0xE6 (R154): increment memory. -/
def execIncZp (d : Byte) (s : State) : Host.Outcome State Fault Refusal :=
  addToCell 1 (.zeroPage d) ⟨2, 5, false⟩ s

/-- INC ZeroPage,X, 0xF6 (R154): increment memory. -/
def execIncZpX (d : Byte) (s : State) : Host.Outcome State Fault Refusal :=
  addToCell 1 (.zeroPageX d) ⟨2, 6, false⟩ s

/-- INC Absolute, 0xEE (R154): increment memory. -/
def execIncAbs (w : Word) (s : State) : Host.Outcome State Fault Refusal :=
  addToCell 1 (.absolute w) ⟨3, 6, false⟩ s

/-- INC Absolute,X, 0xFE (R154): increment memory. -/
def execIncAbsX (w : Word) (s : State) : Host.Outcome State Fault Refusal :=
  addToCell 1 (.absoluteX w) ⟨3, 7, false⟩ s

/-- DEC ZeroPage, 0xC6 (R155): decrement memory. -/
def execDecZp (d : Byte) (s : State) : Host.Outcome State Fault Refusal :=
  addToCell (-1) (.zeroPage d) ⟨2, 5, false⟩ s

/-- DEC ZeroPage,X, 0xD6 (R155): decrement memory. -/
def execDecZpX (d : Byte) (s : State) : Host.Outcome State Fault Refusal :=
  addToCell (-1) (.zeroPageX d) ⟨2, 6, false⟩ s

/-- DEC Absolute, 0xCE (R155): decrement memory. -/
def execDecAbs (w : Word) (s : State) : Host.Outcome State Fault Refusal :=
  addToCell (-1) (.absolute w) ⟨3, 6, false⟩ s

/-- DEC Absolute,X, 0xDE (R155): decrement memory. -/
def execDecAbsX (w : Word) (s : State) : Host.Outcome State Fault Refusal :=
  addToCell (-1) (.absoluteX w) ⟨3, 7, false⟩ s

/-- INX, 0xE8 (R156): increment X. -/
def execInx (s : State) : Host.Outcome State Fault Refusal :=
  addToReg 1 .x ⟨1, 2, false⟩ s

/-- INY, 0xC8 (R157): increment Y. -/
def execIny (s : State) : Host.Outcome State Fault Refusal :=
  addToReg 1 .y ⟨1, 2, false⟩ s

/-- DEX, 0xCA (R158): decrement X. -/
def execDex (s : State) : Host.Outcome State Fault Refusal :=
  addToReg (-1) .x ⟨1, 2, false⟩ s

/-- DEY, 0x88 (R159): decrement Y. -/
def execDey (s : State) : Host.Outcome State Fault Refusal :=
  addToReg (-1) .y ⟨1, 2, false⟩ s

end Sys2Proof.Machine
end

