-- ==== Sys2Proof/Machine/System.lean ====
section
/-! DEFINITION. Stack, flag, NOP and BRK instructions (spec/45_stack_flag_system.md R190 to R203). Each meaning carries its row's length, base cycles
and page-cross mark from spec/30_encoding.md R66; the shared operations carry the rules. -/

namespace Sys2Proof.Machine

/-- PHA and PHP: push one byte; no flag changes (R190, R191). -/
def pushByte (v : Byte) (t : Timing) (s : State) : Host.Outcome State Fault Refusal :=
  outcome do
    let s' ← push v s
    return finish t false s'

/-- PLA and PLP: pop one byte, then the effect it has (R192, R193). -/
def pullByte (f : Byte → State → State) (t : Timing) (s : State) : Host.Outcome State Fault Refusal :=
  outcome do
    let (v, s') ← pop s
    return finish t false (f v s')

/-- CLC, SEC, CLI, SEI, CLD, SED, CLV: one flag, nothing else of P (R194 to R200). -/
def writeFlag (f : Flag) (v : Bool) (t : Timing) (s : State) : Host.Outcome State Fault Refusal :=
  .next (finish t false (s.mapP (withFlag f v)))

/-- PHA, 0x48 (R190): push A. -/
def execPha (s : State) : Host.Outcome State Fault Refusal :=
  pushByte s.a ⟨1, 3, false⟩ s

/-- PHP, 0x08 (R191): push P. -/
def execPhp (s : State) : Host.Outcome State Fault Refusal :=
  pushByte s.p ⟨1, 3, false⟩ s

/-- PLA, 0x68 (R192): pull A. -/
def execPla (s : State) : Host.Outcome State Fault Refusal :=
  pullByte (fun v t => (t.setReg .a v).setZN v) ⟨1, 4, false⟩ s

/-- PLP, 0x28 (R193): pull P. -/
def execPlp (s : State) : Host.Outcome State Fault Refusal :=
  pullByte (fun v t => t.mapP fun _ => statusByte v) ⟨1, 4, false⟩ s

/-- CLC, 0x18 (R194): clear C. -/
def execClc (s : State) : Host.Outcome State Fault Refusal :=
  writeFlag .c false ⟨1, 2, false⟩ s

/-- SEC, 0x38 (R195): set C. -/
def execSec (s : State) : Host.Outcome State Fault Refusal :=
  writeFlag .c true ⟨1, 2, false⟩ s

/-- CLI, 0x58 (R196): clear I. -/
def execCli (s : State) : Host.Outcome State Fault Refusal :=
  writeFlag .i false ⟨1, 2, false⟩ s

/-- SEI, 0x78 (R197): set I. -/
def execSei (s : State) : Host.Outcome State Fault Refusal :=
  writeFlag .i true ⟨1, 2, false⟩ s

/-- CLD, 0xD8 (R198): clear D. -/
def execCld (s : State) : Host.Outcome State Fault Refusal :=
  writeFlag .d false ⟨1, 2, false⟩ s

/-- SED, 0xF8 (R199): set D. -/
def execSed (s : State) : Host.Outcome State Fault Refusal :=
  writeFlag .d true ⟨1, 2, false⟩ s

/-- CLV, 0xB8 (R200): clear V. -/
def execClv (s : State) : Host.Outcome State Fault Refusal :=
  writeFlag .v false ⟨1, 2, false⟩ s

/-- NOP, 0xEA (R201): no operation. -/
def execNop (s : State) : Host.Outcome State Fault Refusal :=
  .next (finish ⟨1, 2, false⟩ false s)

/-- BRK, 0x00 (R203), a stub: PC + 1 and 7 cycles; no push, no vector, no flag (R215). -/
def execBrk (s : State) : Host.Outcome State Fault Refusal :=
  .next (finish ⟨1, 7, false⟩ false s)

end Sys2Proof.Machine
end

