-- ==== Sys2Proof/Machine/Fetch.lean ====
section
/-! DEFINITION. Fetching an instruction's bytes from the BUS (spec/40_dispatch_addressing.md R80, R81, R103;
spec/60_exceptions.md R216) and placing one where the next fetch finds it. -/

namespace Sys2Proof.Machine

/-- The operand bytes of an opcode, from PC + 1 and PC + 2 whatever byte is at PC, made into the instruction. An undefined
opcode reads no operand byte (R81, R216). -/
def fetchOperands (op : Byte) (s : State) : Except Fault Instr :=
  match template op with
  | none => .error (.unknownOpcode op)
  | some (.implied i) => .ok i
  | some (.byte f) => do
    let d ← memRead (s.pc + 1) s
    return f d
  | some (.word f) => do
    let lo ← memRead (s.pc + 1) s
    let hi ← memRead (s.pc + 2) s
    return f (wordOf lo hi)

/-- The opcode byte at PC, then its operand bytes (R80). -/
def fetch (s : State) : Except Fault Instr := do
  let op ← memRead s.pc s
  fetchOperands op s

/-- Store bytes at ascending addresses from `addr`, each as a WRITE of the loader; a byte whose address does not exist is
not stored (R32, R234). -/
def placeBytes : List Byte → Word → State → State
  | [], _, s => s
  | v :: vs, addr, s => placeBytes vs (addr + 1) ((s.busWrite addr.toNat v).getD s)

end Sys2Proof.Machine
end

