-- ==== Sys2Proof/Machine/Step.lean ====
section
/-! DEFINITION. EXEC and STEP (spec/40_dispatch_addressing.md R80, R81). -/

namespace Sys2Proof.Machine

/-- EXEC(op): run the instruction op with the operand bytes that follow PC (R81). -/
def execOpcode (op : Byte) (s : State) : Host.Outcome State Fault Refusal :=
  match fetchOperands op s with
  | .ok i => exec i s
  | .error f => .fault f

/-- STEP: read the byte at PC and run it (R80). -/
def step (s : State) : Host.Outcome State Fault Refusal :=
  match fetch s with
  | .ok i => exec i s
  | .error f => .fault f

/-- s with a table word's instruction stored at PC, where step fetches next (log 8). -/
def State.withFetchWord (s : State) (nbits w : Nat) : State := placeBytes (tableBytes nbits w) s.pc s

end Sys2Proof.Machine
end

