-- ==== Sys2Proof/Machine/Interface.lean ====
section
/-! DEFINITION. The host's operations on CORE (spec/00_scope.md R6, R7; spec/20_memory.md R31 to R39; spec/60_exceptions.md
R210, R224, R226; spec/70_reset_and_hazards.md R230 to R237): requests, replies, and one atomic transition for each. -/

namespace Sys2Proof.Machine

/-- An operation the host, or an external agent between CPU operations (R7, R48), requests. Addresses are unsigned (R9). -/
inductive Request where
  | reset
  | step
  | exec (op : Byte)
  | snapshot
  | read (addr : Nat)
  | write (addr : Nat) (v : Byte)
  | clear
  | clearRange (first last : Nat)
  | mirror (srcFirst srcLast dstFirst dstLast : Nat)
  | clearMirror (first last : Nat)
  /-- The debug surface's "read-one-or-more bytes at an address" (R224). -/
  | readBytes (addr count : Nat)
  /-- A write of an external agent that holds a direct reference to a backing cell (R7, R48). -/
  | writeCell (cell : Nat) (v : Byte)
deriving DecidableEq, Repr

/-- What SNAPSHOT reports (R6, R224). -/
structure Snapshot where
  a : Byte
  x : Byte
  y : Byte
  sp : Byte
  pc : Word
  p : Byte
  cyc : Nat
deriving DecidableEq, Repr

/-- The outcome an operation returns (R210), with the value it carries. -/
inductive Reply where
  | ok
  | okBytes (vs : List Byte)
  | okSnapshot (r : Snapshot)
  | unknownOpcode (op : Byte)
  | busError (addr : Word)
  | rangeError
  /-- No meaning for the instruction: never returned, `exec` has no refused arm. -/
  | refused
deriving DecidableEq, Repr

/-- RESET: every register takes its reset value; the BUS keeps every cell and every alias (R230, R231). -/
def State.resetRegs (s : State) : State := { State.create s.cfg s.cells with refs := s.refs }

/-- SNAPSHOT (R224). -/
def State.snapshot (s : State) : Snapshot :=
  { a := s.a, x := s.x, y := s.y, sp := s.sp, pc := s.pc, p := s.p, cyc := s.cyc }

/-- Zero the cells that `count` addresses from `addr` name, through the alias table, in ascending order (R35). -/
def clearCells : Nat → Nat → State → State
  | 0, _, s => s
  | n + 1, addr, s => clearCells n (addr + 1) (s.poke addr 0x00)

/-- `ref[a] <- i` (R36, R37). -/
def State.setRef (s : State) (a i : Nat) : State := { s with refs := s.refs.setRef a i }

/-- `ref[dst + k] <- ref[src + k]` for `count` values of k, ascending (R36). -/
def copyRefs : Nat → Nat → Nat → State → State
  | 0, _, _, s => s
  | n + 1, src, dst, s => copyRefs n (src + 1) (dst + 1) (s.setRef dst (s.ref src))

/-- `ref[a] <- a` for `count` addresses from `addr` (R37). -/
def clearRefs : Nat → Nat → State → State
  | 0, _, s => s
  | n + 1, addr, s => clearRefs n (addr + 1) (s.setRef addr addr)

/-- Both ends are inclusive; the error conditions of CLEAR_RANGE and CLEAR_MIRROR (R35, R37, R226). -/
def State.rangeOk (s : State) (first last : Nat) : Bool := decide (first ≤ last) && decide (last < s.cfg.busSize)

/-- CLEAR (R34): always OK. -/
def State.clear (s : State) : State := clearCells s.cfg.busSize 0 s

/-- CLEAR_RANGE (R35); none is RANGE_ERROR. -/
def State.clearRange (s : State) (first last : Nat) : Option State :=
  if s.rangeOk first last then some (clearCells (last + 1 - first) first s) else none

/-- MIRROR (R36); none is RANGE_ERROR. -/
def State.mirror (s : State) (srcFirst srcLast dstFirst dstLast : Nat) : Option State :=
  if s.rangeOk srcFirst srcLast && s.rangeOk dstFirst dstLast && decide (srcLast - srcFirst = dstLast - dstFirst) then
    some (copyRefs (srcLast + 1 - srcFirst) srcFirst dstFirst s)
  else none

/-- CLEAR_MIRROR (R37); none is RANGE_ERROR. -/
def State.clearMirror (s : State) (first last : Nat) : Option State :=
  if s.rangeOk first last then some (clearRefs (last + 1 - first) first s) else none

/-- READs at `count` ascending addresses; none at the first one out of range (R224). DESIGN CHOICE (log 15), unsafe: count 0
answers the empty list, and a failing read answers no byte. -/
def State.readBytes (s : State) : Nat → Nat → Option (List Byte)
  | _, 0 => some []
  | addr, n + 1 => do
    let v ← s.busRead addr
    let vs ← s.readBytes (addr + 1) n
    return v :: vs

/-- `cell[c] <- v` by an agent that holds a reference to the cell (R7, R48). -/
def State.writeCell (s : State) (c : Nat) (v : Byte) : Option State :=
  if c < s.cfg.busSize then some { s with cells := s.cells.setCell c v } else none

/-- A BUS operation that writes: OK with the new state, or RANGE_ERROR with the state as it was (R33, R226). -/
def busReply (s : State) : Option State → State × Reply
  | some t => (t, .ok)
  | none => (s, .rangeError)

/-- STEP and EXEC: OK with the new state, or the failure with the state as it was (R210 to R212). -/
def cpuReply (s : State) : Host.Outcome State Fault Refusal → State × Reply
  | .next t => (t, .ok)
  | .fault (.unknownOpcode op) => (s, .unknownOpcode op)
  | .fault (.busError addr) => (s, .busError addr)
  | .refused _ => (s, .refused)

/-- One operation, run to completion: the state after it and its outcome (R6, R237). -/
def perform (r : Request) (s : State) : State × Reply :=
  match r with
  | .reset => (s.resetRegs, .ok)
  | .step => cpuReply s (step s)
  | .exec op => cpuReply s (execOpcode op s)
  | .snapshot => (s, .okSnapshot s.snapshot)
  | .read addr =>
    match s.busRead addr with
    | some v => (s, .okBytes [v])
    | none => (s, .rangeError)
  | .write addr v => busReply s (s.busWrite addr v)
  | .clear => (s.clear, .ok)
  | .clearRange first last => busReply s (s.clearRange first last)
  | .mirror srcFirst srcLast dstFirst dstLast => busReply s (s.mirror srcFirst srcLast dstFirst dstLast)
  | .clearMirror first last => busReply s (s.clearMirror first last)
  | .readBytes addr count =>
    match s.readBytes addr count with
    | some vs => (s, .okBytes vs)
    | none => (s, .rangeError)
  | .writeCell c v => busReply s (s.writeCell c v)

end Sys2Proof.Machine
end

