-- ==== Sys2Proof/Safety.lean ====
section
/-! DEFINITION. What a good state and a safe run are, and which differences of two states a CPU cannot see. -/

namespace Sys2Proof.Machine

/-- Every listed cell exists (R17). -/
abbrev Memory.within (m : Memory) (n : Nat) : Prop := ∀ e ∈ m, e.1 < n

/-- Every listed address exists and names a cell that exists (R18). -/
abbrev AliasTable.within (t : AliasTable) (n : Nat) : Prop := ∀ e ∈ t, e.1 < n ∧ e.2 < n

/-- The invariant of every state that creation, RESET, STEP, EXEC and the BUS operations reach: legal parameters (R8), the
canonical form and range of cells and aliases (R17, R18), P.U = 1 (R14), CYC within its width (R16). -/
structure State.Inv (s : State) : Prop where
  cfg : s.cfg.wf = true
  cells : s.cells.wf
  cellsWithin : s.cells.within s.cfg.busSize
  refs : s.refs.wf
  refsWithin : s.refs.within s.cfg.busSize
  unused : s.flag .u = true
  cyc : s.cyc < 2 ^ s.cfg.cycWidth

/-- An outcome that is no stop. -/
def completes {σ φ ρ : Type} : Host.Outcome σ φ ρ → Bool
  | .next _ => true
  | .fault _ => false
  | .refused _ => false

/-- A run is safe for k steps when no step of it stops (R239). -/
def SafeFor (k : Nat) (s : State) : Prop := completes (Sys2Proof.core.run k s) = true

/-- Two states that differ only in what no instruction can tell apart: the same parameters and registers, every address reads
the same and the same pairs of addresses are aliases of one another. The numbers of the backing cells and the content of
hidden cells may differ (R19, R38). -/
structure SameView (s t : State) : Prop where
  cfg : s.cfg = t.cfg
  a : s.a = t.a
  x : s.x = t.x
  y : s.y = t.y
  sp : s.sp = t.sp
  pc : s.pc = t.pc
  p : s.p = t.p
  cyc : s.cyc = t.cyc
  bytes : ∀ addr, addr < s.cfg.busSize → s.peek addr = t.peek addr
  aliases : ∀ a b, a < s.cfg.busSize → b < s.cfg.busSize → (s.ref a = s.ref b ↔ t.ref a = t.ref b)

/-- Two outcomes agree up to a relation of states: the same stop, or next states it relates. -/
def outcomesAgree (rel : State → State → Prop) :
    Host.Outcome State Fault Refusal → Host.Outcome State Fault Refusal → Prop
  | .next s, .next t => rel s t
  | .fault f, .fault g => f = g
  | .refused r, .refused q => r = q
  | _, _ => False

end Sys2Proof.Machine
end

