-- ==== Sys2Proof/Certificates/Slice0/Obligations.lean ====
section
/-! DEFINITION. The statements for the provers: def Obligations.<Name> : Prop. The relations of Sys2Proof.Forms list, row by
row, what spec/30_encoding.md R66 says of the opcodes a statement is about: opcode byte, operand, length, base cycles and page
mark. The predicates of Sys2Proof.Forms say, field by field, what an instruction writes and what it leaves alone. -/

namespace Sys2Proof.Forms

open Sys2Proof Sys2Proof.Machine

/-! ### What an instruction leaves behind -/

/-- PC and CYC after `Finish(length, base, extra)` with cost = base + extra (R12, R16, R82). -/
def Advances (length cost : Nat) (s s' : State) : Prop :=
  s'.pc.toNat = (s.pc.toNat + length) % 65536 ∧ s'.cyc = (s.cyc + cost) % 2 ^ s.cfg.cycWidth

/-- PC and CYC after a control transfer. -/
def GoesTo (target cost : Nat) (s s' : State) : Prop :=
  s'.pc.toNat = target ∧ s'.cyc = (s.cyc + cost) % 2 ^ s.cfg.cycWidth

/-- The cycles of a row of R66: base, and one more if the row is marked and a page was crossed. -/
def cost (t : Timing) (crossed : Bool) : Nat := t.base + if t.crossExtra = true ∧ crossed = true then 1 else 0

/-- A, X, Y, SP are as before, but for the listed ones. -/
def KeepsRegs (but : List Reg) (s s' : State) : Prop := ∀ r, r ∉ but → s'.reg r = s.reg r

/-- The eight flags are as before, but for the listed ones. -/
def KeepsFlags (but : List Flag) (s s' : State) : Prop := ∀ f, f ∉ but → s'.flag f = s.flag f

/-- Z and N follow the value (R97). -/
def ZNFollow (v : Byte) (s' : State) : Prop :=
  s'.flag .z = decide (v.toNat = 0) ∧ s'.flag .n = decide (128 ≤ v.toNat)

/-- Every cell, every alias and the parameters are as before, and so every address reads as before. -/
def KeepsBus (s s' : State) : Prop :=
  s'.cfg = s.cfg ∧ s'.refs = s.refs ∧ s'.cells = s.cells ∧ ∀ b, s'.busRead b = s.busRead b

/-- The canonical cell of address a holds v, and with it every alias of a reads v; every other cell is as before, and every
address that is no alias of a reads as before; aliases and parameters are as before (R32). -/
def StoresByte (a : Nat) (v : Byte) (s s' : State) : Prop :=
  s'.cfg = s.cfg ∧ s'.refs = s.refs ∧
  (∀ c, s'.cells.cell c = if c = s.ref a then v else s.cells.cell c) ∧
  (∀ b, s.ref b = s.ref a → b < s.cfg.busSize → s'.busRead b = some v) ∧
  (∀ b, s.ref b ≠ s.ref a → s'.busRead b = s.busRead b)

/-- The stack slot a pop reads k pops from now (R98). -/
def popSlot (s : State) (k : Nat) : Nat := 0x0100 + (s.sp.toNat + k) % 256

/-- The stack slot a push writes k pushes from now, k at most 256 (R98). -/
def pushSlot (s : State) (k : Nat) : Nat := 0x0100 + (s.sp.toNat + 256 - k) % 256

/-- The bytes at ascending addresses from `addr` on are these. -/
def HoldsBytes (s : State) (addr : Word) (bs : List Byte) : Prop :=
  ∀ k, k < bs.length → memRead (addr + BitVec.ofNat 16 k) s = .ok (bs.getD k 0)

/-- The 105 undefined opcode bytes (R64). -/
def undefinedOpcodes : List Byte :=
  [0x02, 0x03, 0x04, 0x07, 0x0B, 0x0C, 0x0F, 0x12, 0x13, 0x14, 0x17, 0x1A, 0x1B, 0x1C, 0x1F] ++
  [0x22, 0x23, 0x27, 0x2B, 0x2F, 0x32, 0x33, 0x34, 0x37, 0x3A, 0x3B, 0x3C, 0x3F, 0x42, 0x43] ++
  [0x44, 0x47, 0x4B, 0x4F, 0x52, 0x53, 0x54, 0x57, 0x5A, 0x5B, 0x5C, 0x5F, 0x62, 0x63, 0x64] ++
  [0x67, 0x6B, 0x6F, 0x72, 0x73, 0x74, 0x77, 0x7A, 0x7B, 0x7C, 0x7F, 0x80, 0x82, 0x83, 0x87] ++
  [0x89, 0x8B, 0x8F, 0x92, 0x93, 0x97, 0x9B, 0x9C, 0x9E, 0x9F, 0xA3, 0xA7, 0xAB, 0xAF, 0xB2] ++
  [0xB3, 0xB7, 0xBB, 0xBF, 0xC2, 0xC3, 0xC7, 0xCB, 0xCF, 0xD2, 0xD3, 0xD4, 0xD7, 0xDA, 0xDB] ++
  [0xDC, 0xDF, 0xE2, 0xE3, 0xE7, 0xEB, 0xEF, 0xF2, 0xF3, 0xF4, 0xF7, 0xFA, 0xFB, 0xFC, 0xFF]

/-! ### Operand bytes (R61) -/

/-- The operand bytes of a memory mode, low byte first. -/
def modeBytes : MemMode → List Byte
  | .zeroPage d => [d]
  | .zeroPageX d => [d]
  | .zeroPageY d => [d]
  | .absolute w => [w.lo, w.hi]
  | .absoluteX w => [w.lo, w.hi]
  | .absoluteY w => [w.lo, w.hi]
  | .indirectX d => [d]
  | .indirectY d => [d]

def sourceBytes : Source → List Byte
  | .imm v => [v]
  | .mem m => modeBytes m

def placeBytes : Place → List Byte
  | .acc => []
  | .mem m => modeBytes m

/-! ### The rows of R66, by what the instructions do -/

/-- LDA, LDX, LDY (R110 to R112): register, opcode, instruction, operand, row. -/
inductive LoadForm : Reg → Byte → Instr → Source → Timing → Prop where
  | ldaImm (v : Byte) : LoadForm .a 0xA9 (.ldaImm v) (.imm v) ⟨2, 2, false⟩
  | ldaZp (d : Byte) : LoadForm .a 0xA5 (.ldaZp d) (.mem (.zeroPage d)) ⟨2, 3, false⟩
  | ldaZpX (d : Byte) : LoadForm .a 0xB5 (.ldaZpX d) (.mem (.zeroPageX d)) ⟨2, 4, false⟩
  | ldaAbs (w : Word) : LoadForm .a 0xAD (.ldaAbs w) (.mem (.absolute w)) ⟨3, 4, false⟩
  | ldaAbsX (w : Word) : LoadForm .a 0xBD (.ldaAbsX w) (.mem (.absoluteX w)) ⟨3, 4, true⟩
  | ldaAbsY (w : Word) : LoadForm .a 0xB9 (.ldaAbsY w) (.mem (.absoluteY w)) ⟨3, 4, true⟩
  | ldaIndX (d : Byte) : LoadForm .a 0xA1 (.ldaIndX d) (.mem (.indirectX d)) ⟨2, 6, false⟩
  | ldaIndY (d : Byte) : LoadForm .a 0xB1 (.ldaIndY d) (.mem (.indirectY d)) ⟨2, 5, true⟩
  | ldxImm (v : Byte) : LoadForm .x 0xA2 (.ldxImm v) (.imm v) ⟨2, 2, false⟩
  | ldxZp (d : Byte) : LoadForm .x 0xA6 (.ldxZp d) (.mem (.zeroPage d)) ⟨2, 3, false⟩
  | ldxZpY (d : Byte) : LoadForm .x 0xB6 (.ldxZpY d) (.mem (.zeroPageY d)) ⟨2, 4, false⟩
  | ldxAbs (w : Word) : LoadForm .x 0xAE (.ldxAbs w) (.mem (.absolute w)) ⟨3, 4, false⟩
  | ldxAbsY (w : Word) : LoadForm .x 0xBE (.ldxAbsY w) (.mem (.absoluteY w)) ⟨3, 4, true⟩
  | ldyImm (v : Byte) : LoadForm .y 0xA0 (.ldyImm v) (.imm v) ⟨2, 2, false⟩
  | ldyZp (d : Byte) : LoadForm .y 0xA4 (.ldyZp d) (.mem (.zeroPage d)) ⟨2, 3, false⟩
  | ldyZpX (d : Byte) : LoadForm .y 0xB4 (.ldyZpX d) (.mem (.zeroPageX d)) ⟨2, 4, false⟩
  | ldyAbs (w : Word) : LoadForm .y 0xAC (.ldyAbs w) (.mem (.absolute w)) ⟨3, 4, false⟩
  | ldyAbsX (w : Word) : LoadForm .y 0xBC (.ldyAbsX w) (.mem (.absoluteX w)) ⟨3, 4, true⟩

/-- STA, STX, STY (R113 to R115). -/
inductive StoreForm : Reg → Byte → Instr → MemMode → Timing → Prop where
  | staZp (d : Byte) : StoreForm .a 0x85 (.staZp d) (.zeroPage d) ⟨2, 3, false⟩
  | staZpX (d : Byte) : StoreForm .a 0x95 (.staZpX d) (.zeroPageX d) ⟨2, 4, false⟩
  | staAbs (w : Word) : StoreForm .a 0x8D (.staAbs w) (.absolute w) ⟨3, 4, false⟩
  | staAbsX (w : Word) : StoreForm .a 0x9D (.staAbsX w) (.absoluteX w) ⟨3, 5, false⟩
  | staAbsY (w : Word) : StoreForm .a 0x99 (.staAbsY w) (.absoluteY w) ⟨3, 5, false⟩
  | staIndX (d : Byte) : StoreForm .a 0x81 (.staIndX d) (.indirectX d) ⟨2, 6, false⟩
  | staIndY (d : Byte) : StoreForm .a 0x91 (.staIndY d) (.indirectY d) ⟨2, 6, false⟩
  | stxZp (d : Byte) : StoreForm .x 0x86 (.stxZp d) (.zeroPage d) ⟨2, 3, false⟩
  | stxZpY (d : Byte) : StoreForm .x 0x96 (.stxZpY d) (.zeroPageY d) ⟨2, 4, false⟩
  | stxAbs (w : Word) : StoreForm .x 0x8E (.stxAbs w) (.absolute w) ⟨3, 4, false⟩
  | styZp (d : Byte) : StoreForm .y 0x84 (.styZp d) (.zeroPage d) ⟨2, 3, false⟩
  | styZpX (d : Byte) : StoreForm .y 0x94 (.styZpX d) (.zeroPageX d) ⟨2, 4, false⟩
  | styAbs (w : Word) : StoreForm .y 0x8C (.styAbs w) (.absolute w) ⟨3, 4, false⟩

/-- TAX, TAY, TXA, TYA, TSX (R116 to R120): source, destination. -/
inductive TransferForm : Reg → Reg → Byte → Instr → Prop where
  | tax : TransferForm .a .x 0xAA .tax
  | tay : TransferForm .a .y 0xA8 .tay
  | txa : TransferForm .x .a 0x8A .txa
  | tya : TransferForm .y .a 0x98 .tya
  | tsx : TransferForm .sp .x 0xBA .tsx

/-- ADC (R130). -/
inductive AdcForm : Byte → Instr → Source → Timing → Prop where
  | adcImm (v : Byte) : AdcForm 0x69 (.adcImm v) (.imm v) ⟨2, 2, false⟩
  | adcZp (d : Byte) : AdcForm 0x65 (.adcZp d) (.mem (.zeroPage d)) ⟨2, 3, false⟩
  | adcZpX (d : Byte) : AdcForm 0x75 (.adcZpX d) (.mem (.zeroPageX d)) ⟨2, 4, false⟩
  | adcAbs (w : Word) : AdcForm 0x6D (.adcAbs w) (.mem (.absolute w)) ⟨3, 4, false⟩
  | adcAbsX (w : Word) : AdcForm 0x7D (.adcAbsX w) (.mem (.absoluteX w)) ⟨3, 4, true⟩
  | adcAbsY (w : Word) : AdcForm 0x79 (.adcAbsY w) (.mem (.absoluteY w)) ⟨3, 4, true⟩
  | adcIndX (d : Byte) : AdcForm 0x61 (.adcIndX d) (.mem (.indirectX d)) ⟨2, 6, false⟩
  | adcIndY (d : Byte) : AdcForm 0x71 (.adcIndY d) (.mem (.indirectY d)) ⟨2, 5, true⟩

/-- SBC (R132). -/
inductive SbcForm : Byte → Instr → Source → Timing → Prop where
  | sbcImm (v : Byte) : SbcForm 0xE9 (.sbcImm v) (.imm v) ⟨2, 2, false⟩
  | sbcZp (d : Byte) : SbcForm 0xE5 (.sbcZp d) (.mem (.zeroPage d)) ⟨2, 3, false⟩
  | sbcZpX (d : Byte) : SbcForm 0xF5 (.sbcZpX d) (.mem (.zeroPageX d)) ⟨2, 4, false⟩
  | sbcAbs (w : Word) : SbcForm 0xED (.sbcAbs w) (.mem (.absolute w)) ⟨3, 4, false⟩
  | sbcAbsX (w : Word) : SbcForm 0xFD (.sbcAbsX w) (.mem (.absoluteX w)) ⟨3, 4, true⟩
  | sbcAbsY (w : Word) : SbcForm 0xF9 (.sbcAbsY w) (.mem (.absoluteY w)) ⟨3, 4, true⟩
  | sbcIndX (d : Byte) : SbcForm 0xE1 (.sbcIndX d) (.mem (.indirectX d)) ⟨2, 6, false⟩
  | sbcIndY (d : Byte) : SbcForm 0xF1 (.sbcIndY d) (.mem (.indirectY d)) ⟨2, 5, true⟩

/-- AND, ORA, EOR (R134 to R136), with what each does to two bits. -/
inductive LogicForm : (Bool → Bool → Bool) → Byte → Instr → Source → Timing → Prop where
  | andImm (v : Byte) : LogicForm Bool.and 0x29 (.andImm v) (.imm v) ⟨2, 2, false⟩
  | andZp (d : Byte) : LogicForm Bool.and 0x25 (.andZp d) (.mem (.zeroPage d)) ⟨2, 3, false⟩
  | andZpX (d : Byte) : LogicForm Bool.and 0x35 (.andZpX d) (.mem (.zeroPageX d)) ⟨2, 4, false⟩
  | andAbs (w : Word) : LogicForm Bool.and 0x2D (.andAbs w) (.mem (.absolute w)) ⟨3, 4, false⟩
  | andAbsX (w : Word) : LogicForm Bool.and 0x3D (.andAbsX w) (.mem (.absoluteX w)) ⟨3, 4, true⟩
  | andAbsY (w : Word) : LogicForm Bool.and 0x39 (.andAbsY w) (.mem (.absoluteY w)) ⟨3, 4, true⟩
  | andIndX (d : Byte) : LogicForm Bool.and 0x21 (.andIndX d) (.mem (.indirectX d)) ⟨2, 6, false⟩
  | andIndY (d : Byte) : LogicForm Bool.and 0x31 (.andIndY d) (.mem (.indirectY d)) ⟨2, 5, true⟩
  | oraImm (v : Byte) : LogicForm Bool.or 0x09 (.oraImm v) (.imm v) ⟨2, 2, false⟩
  | oraZp (d : Byte) : LogicForm Bool.or 0x05 (.oraZp d) (.mem (.zeroPage d)) ⟨2, 3, false⟩
  | oraZpX (d : Byte) : LogicForm Bool.or 0x15 (.oraZpX d) (.mem (.zeroPageX d)) ⟨2, 4, false⟩
  | oraAbs (w : Word) : LogicForm Bool.or 0x0D (.oraAbs w) (.mem (.absolute w)) ⟨3, 4, false⟩
  | oraAbsX (w : Word) : LogicForm Bool.or 0x1D (.oraAbsX w) (.mem (.absoluteX w)) ⟨3, 4, true⟩
  | oraAbsY (w : Word) : LogicForm Bool.or 0x19 (.oraAbsY w) (.mem (.absoluteY w)) ⟨3, 4, true⟩
  | oraIndX (d : Byte) : LogicForm Bool.or 0x01 (.oraIndX d) (.mem (.indirectX d)) ⟨2, 6, false⟩
  | oraIndY (d : Byte) : LogicForm Bool.or 0x11 (.oraIndY d) (.mem (.indirectY d)) ⟨2, 5, true⟩
  | eorImm (v : Byte) : LogicForm Bool.xor 0x49 (.eorImm v) (.imm v) ⟨2, 2, false⟩
  | eorZp (d : Byte) : LogicForm Bool.xor 0x45 (.eorZp d) (.mem (.zeroPage d)) ⟨2, 3, false⟩
  | eorZpX (d : Byte) : LogicForm Bool.xor 0x55 (.eorZpX d) (.mem (.zeroPageX d)) ⟨2, 4, false⟩
  | eorAbs (w : Word) : LogicForm Bool.xor 0x4D (.eorAbs w) (.mem (.absolute w)) ⟨3, 4, false⟩
  | eorAbsX (w : Word) : LogicForm Bool.xor 0x5D (.eorAbsX w) (.mem (.absoluteX w)) ⟨3, 4, true⟩
  | eorAbsY (w : Word) : LogicForm Bool.xor 0x59 (.eorAbsY w) (.mem (.absoluteY w)) ⟨3, 4, true⟩
  | eorIndX (d : Byte) : LogicForm Bool.xor 0x41 (.eorIndX d) (.mem (.indirectX d)) ⟨2, 6, false⟩
  | eorIndY (d : Byte) : LogicForm Bool.xor 0x51 (.eorIndY d) (.mem (.indirectY d)) ⟨2, 5, true⟩

/-- BIT (R137). -/
inductive BitForm : Byte → Instr → Source → Timing → Prop where
  | bitZp (d : Byte) : BitForm 0x24 (.bitZp d) (.mem (.zeroPage d)) ⟨2, 3, false⟩
  | bitAbs (w : Word) : BitForm 0x2C (.bitAbs w) (.mem (.absolute w)) ⟨3, 4, false⟩

/-- CMP, CPX, CPY (R138 to R140). -/
inductive CompareForm : Reg → Byte → Instr → Source → Timing → Prop where
  | cmpImm (v : Byte) : CompareForm .a 0xC9 (.cmpImm v) (.imm v) ⟨2, 2, false⟩
  | cmpZp (d : Byte) : CompareForm .a 0xC5 (.cmpZp d) (.mem (.zeroPage d)) ⟨2, 3, false⟩
  | cmpZpX (d : Byte) : CompareForm .a 0xD5 (.cmpZpX d) (.mem (.zeroPageX d)) ⟨2, 4, false⟩
  | cmpAbs (w : Word) : CompareForm .a 0xCD (.cmpAbs w) (.mem (.absolute w)) ⟨3, 4, false⟩
  | cmpAbsX (w : Word) : CompareForm .a 0xDD (.cmpAbsX w) (.mem (.absoluteX w)) ⟨3, 4, true⟩
  | cmpAbsY (w : Word) : CompareForm .a 0xD9 (.cmpAbsY w) (.mem (.absoluteY w)) ⟨3, 4, true⟩
  | cmpIndX (d : Byte) : CompareForm .a 0xC1 (.cmpIndX d) (.mem (.indirectX d)) ⟨2, 6, false⟩
  | cmpIndY (d : Byte) : CompareForm .a 0xD1 (.cmpIndY d) (.mem (.indirectY d)) ⟨2, 5, true⟩
  | cpxImm (v : Byte) : CompareForm .x 0xE0 (.cpxImm v) (.imm v) ⟨2, 2, false⟩
  | cpxZp (d : Byte) : CompareForm .x 0xE4 (.cpxZp d) (.mem (.zeroPage d)) ⟨2, 3, false⟩
  | cpxAbs (w : Word) : CompareForm .x 0xEC (.cpxAbs w) (.mem (.absolute w)) ⟨3, 4, false⟩
  | cpyImm (v : Byte) : CompareForm .y 0xC0 (.cpyImm v) (.imm v) ⟨2, 2, false⟩
  | cpyZp (d : Byte) : CompareForm .y 0xC4 (.cpyZp d) (.mem (.zeroPage d)) ⟨2, 3, false⟩
  | cpyAbs (w : Word) : CompareForm .y 0xCC (.cpyAbs w) (.mem (.absolute w)) ⟨3, 4, false⟩

/-- The four shifts and rotates. -/
inductive ShiftKind where
  | asl
  | lsr
  | rol
  | ror

/-- ASL, LSR, ROL, ROR on A and on memory (R150 to R153). -/
inductive ShiftForm : ShiftKind → Byte → Instr → Place → Timing → Prop where
  | aslAcc : ShiftForm .asl 0x0A .aslAcc .acc ⟨1, 2, false⟩
  | aslZp (d : Byte) : ShiftForm .asl 0x06 (.aslZp d) (.mem (.zeroPage d)) ⟨2, 5, false⟩
  | aslZpX (d : Byte) : ShiftForm .asl 0x16 (.aslZpX d) (.mem (.zeroPageX d)) ⟨2, 6, false⟩
  | aslAbs (w : Word) : ShiftForm .asl 0x0E (.aslAbs w) (.mem (.absolute w)) ⟨3, 6, false⟩
  | aslAbsX (w : Word) : ShiftForm .asl 0x1E (.aslAbsX w) (.mem (.absoluteX w)) ⟨3, 7, false⟩
  | lsrAcc : ShiftForm .lsr 0x4A .lsrAcc .acc ⟨1, 2, false⟩
  | lsrZp (d : Byte) : ShiftForm .lsr 0x46 (.lsrZp d) (.mem (.zeroPage d)) ⟨2, 5, false⟩
  | lsrZpX (d : Byte) : ShiftForm .lsr 0x56 (.lsrZpX d) (.mem (.zeroPageX d)) ⟨2, 6, false⟩
  | lsrAbs (w : Word) : ShiftForm .lsr 0x4E (.lsrAbs w) (.mem (.absolute w)) ⟨3, 6, false⟩
  | lsrAbsX (w : Word) : ShiftForm .lsr 0x5E (.lsrAbsX w) (.mem (.absoluteX w)) ⟨3, 7, false⟩
  | rolAcc : ShiftForm .rol 0x2A .rolAcc .acc ⟨1, 2, false⟩
  | rolZp (d : Byte) : ShiftForm .rol 0x26 (.rolZp d) (.mem (.zeroPage d)) ⟨2, 5, false⟩
  | rolZpX (d : Byte) : ShiftForm .rol 0x36 (.rolZpX d) (.mem (.zeroPageX d)) ⟨2, 6, false⟩
  | rolAbs (w : Word) : ShiftForm .rol 0x2E (.rolAbs w) (.mem (.absolute w)) ⟨3, 6, false⟩
  | rolAbsX (w : Word) : ShiftForm .rol 0x3E (.rolAbsX w) (.mem (.absoluteX w)) ⟨3, 7, false⟩
  | rorAcc : ShiftForm .ror 0x6A .rorAcc .acc ⟨1, 2, false⟩
  | rorZp (d : Byte) : ShiftForm .ror 0x66 (.rorZp d) (.mem (.zeroPage d)) ⟨2, 5, false⟩
  | rorZpX (d : Byte) : ShiftForm .ror 0x76 (.rorZpX d) (.mem (.zeroPageX d)) ⟨2, 6, false⟩
  | rorAbs (w : Word) : ShiftForm .ror 0x6E (.rorAbs w) (.mem (.absolute w)) ⟨3, 6, false⟩
  | rorAbsX (w : Word) : ShiftForm .ror 0x7E (.rorAbsX w) (.mem (.absoluteX w)) ⟨3, 7, false⟩

/-- INC and DEC (R154, R155): what is added mod 256. -/
inductive CellStepForm : Nat → Byte → Instr → MemMode → Timing → Prop where
  | incZp (d : Byte) : CellStepForm 1 0xE6 (.incZp d) (.zeroPage d) ⟨2, 5, false⟩
  | incZpX (d : Byte) : CellStepForm 1 0xF6 (.incZpX d) (.zeroPageX d) ⟨2, 6, false⟩
  | incAbs (w : Word) : CellStepForm 1 0xEE (.incAbs w) (.absolute w) ⟨3, 6, false⟩
  | incAbsX (w : Word) : CellStepForm 1 0xFE (.incAbsX w) (.absoluteX w) ⟨3, 7, false⟩
  | decZp (d : Byte) : CellStepForm 255 0xC6 (.decZp d) (.zeroPage d) ⟨2, 5, false⟩
  | decZpX (d : Byte) : CellStepForm 255 0xD6 (.decZpX d) (.zeroPageX d) ⟨2, 6, false⟩
  | decAbs (w : Word) : CellStepForm 255 0xCE (.decAbs w) (.absolute w) ⟨3, 6, false⟩
  | decAbsX (w : Word) : CellStepForm 255 0xDE (.decAbsX w) (.absoluteX w) ⟨3, 7, false⟩

/-- INX, INY, DEX, DEY (R156 to R159): what is added mod 256, register. -/
inductive RegStepForm : Nat → Reg → Byte → Instr → Prop where
  | inx : RegStepForm 1 .x 0xE8 .inx
  | iny : RegStepForm 1 .y 0xC8 .iny
  | dex : RegStepForm 255 .x 0xCA .dex
  | dey : RegStepForm 255 .y 0x88 .dey

/-- The eight branches (R171 to R178): flag tested, the value it is taken on, opcode, instruction, offset. -/
inductive BranchForm : Flag → Bool → Byte → Instr → Byte → Prop where
  | bcc (d : Byte) : BranchForm .c false 0x90 (.bcc d) d
  | bcs (d : Byte) : BranchForm .c true 0xB0 (.bcs d) d
  | beq (d : Byte) : BranchForm .z true 0xF0 (.beq d) d
  | bmi (d : Byte) : BranchForm .n true 0x30 (.bmi d) d
  | bne (d : Byte) : BranchForm .z false 0xD0 (.bne d) d
  | bpl (d : Byte) : BranchForm .n false 0x10 (.bpl d) d
  | bvc (d : Byte) : BranchForm .v false 0x50 (.bvc d) d
  | bvs (d : Byte) : BranchForm .v true 0x70 (.bvs d) d

/-- CLC, SEC, CLI, SEI, CLD, SED, CLV (R194 to R200): flag, its new value. -/
inductive FlagForm : Flag → Bool → Byte → Instr → Prop where
  | clc : FlagForm .c false 0x18 .clc
  | sec : FlagForm .c true 0x38 .sec
  | cli : FlagForm .i false 0x58 .cli
  | sei : FlagForm .i true 0x78 .sei
  | cld : FlagForm .d false 0xD8 .cld
  | sed : FlagForm .d true 0xF8 .sed
  | clv : FlagForm .v false 0xB8 .clv

/-- The 56 mnemonics (R63). -/
inductive Mnemonic where
  | adc
  | and
  | asl
  | bcc
  | bcs
  | beq
  | bit
  | bmi
  | bne
  | bpl
  | brk
  | bvc
  | bvs
  | clc
  | cld
  | cli
  | clv
  | cmp
  | cpx
  | cpy
  | dec
  | dex
  | dey
  | eor
  | inc
  | inx
  | iny
  | jmp
  | jsr
  | lda
  | ldx
  | ldy
  | lsr
  | nop
  | ora
  | pha
  | php
  | pla
  | plp
  | rol
  | ror
  | rti
  | rts
  | sbc
  | sec
  | sed
  | sei
  | sta
  | stx
  | sty
  | tax
  | tay
  | tsx
  | txa
  | txs
  | tya
deriving DecidableEq, Repr

/-- The mnemonic of an instruction (R66). -/
def mnemonic : Instr → Mnemonic
  | .ldaImm _ => .lda
  | .ldaZp _ => .lda
  | .ldaZpX _ => .lda
  | .ldaAbs _ => .lda
  | .ldaAbsX _ => .lda
  | .ldaAbsY _ => .lda
  | .ldaIndX _ => .lda
  | .ldaIndY _ => .lda
  | .ldxImm _ => .ldx
  | .ldxZp _ => .ldx
  | .ldxZpY _ => .ldx
  | .ldxAbs _ => .ldx
  | .ldxAbsY _ => .ldx
  | .ldyImm _ => .ldy
  | .ldyZp _ => .ldy
  | .ldyZpX _ => .ldy
  | .ldyAbs _ => .ldy
  | .ldyAbsX _ => .ldy
  | .staZp _ => .sta
  | .staZpX _ => .sta
  | .staAbs _ => .sta
  | .staAbsX _ => .sta
  | .staAbsY _ => .sta
  | .staIndX _ => .sta
  | .staIndY _ => .sta
  | .stxZp _ => .stx
  | .stxZpY _ => .stx
  | .stxAbs _ => .stx
  | .styZp _ => .sty
  | .styZpX _ => .sty
  | .styAbs _ => .sty
  | .tax => .tax
  | .tay => .tay
  | .txa => .txa
  | .tya => .tya
  | .tsx => .tsx
  | .txs => .txs
  | .adcImm _ => .adc
  | .adcZp _ => .adc
  | .adcZpX _ => .adc
  | .adcAbs _ => .adc
  | .adcAbsX _ => .adc
  | .adcAbsY _ => .adc
  | .adcIndX _ => .adc
  | .adcIndY _ => .adc
  | .sbcImm _ => .sbc
  | .sbcZp _ => .sbc
  | .sbcZpX _ => .sbc
  | .sbcAbs _ => .sbc
  | .sbcAbsX _ => .sbc
  | .sbcAbsY _ => .sbc
  | .sbcIndX _ => .sbc
  | .sbcIndY _ => .sbc
  | .andImm _ => .and
  | .andZp _ => .and
  | .andZpX _ => .and
  | .andAbs _ => .and
  | .andAbsX _ => .and
  | .andAbsY _ => .and
  | .andIndX _ => .and
  | .andIndY _ => .and
  | .oraImm _ => .ora
  | .oraZp _ => .ora
  | .oraZpX _ => .ora
  | .oraAbs _ => .ora
  | .oraAbsX _ => .ora
  | .oraAbsY _ => .ora
  | .oraIndX _ => .ora
  | .oraIndY _ => .ora
  | .eorImm _ => .eor
  | .eorZp _ => .eor
  | .eorZpX _ => .eor
  | .eorAbs _ => .eor
  | .eorAbsX _ => .eor
  | .eorAbsY _ => .eor
  | .eorIndX _ => .eor
  | .eorIndY _ => .eor
  | .bitZp _ => .bit
  | .bitAbs _ => .bit
  | .cmpImm _ => .cmp
  | .cmpZp _ => .cmp
  | .cmpZpX _ => .cmp
  | .cmpAbs _ => .cmp
  | .cmpAbsX _ => .cmp
  | .cmpAbsY _ => .cmp
  | .cmpIndX _ => .cmp
  | .cmpIndY _ => .cmp
  | .cpxImm _ => .cpx
  | .cpxZp _ => .cpx
  | .cpxAbs _ => .cpx
  | .cpyImm _ => .cpy
  | .cpyZp _ => .cpy
  | .cpyAbs _ => .cpy
  | .aslAcc => .asl
  | .aslZp _ => .asl
  | .aslZpX _ => .asl
  | .aslAbs _ => .asl
  | .aslAbsX _ => .asl
  | .lsrAcc => .lsr
  | .lsrZp _ => .lsr
  | .lsrZpX _ => .lsr
  | .lsrAbs _ => .lsr
  | .lsrAbsX _ => .lsr
  | .rolAcc => .rol
  | .rolZp _ => .rol
  | .rolZpX _ => .rol
  | .rolAbs _ => .rol
  | .rolAbsX _ => .rol
  | .rorAcc => .ror
  | .rorZp _ => .ror
  | .rorZpX _ => .ror
  | .rorAbs _ => .ror
  | .rorAbsX _ => .ror
  | .incZp _ => .inc
  | .incZpX _ => .inc
  | .incAbs _ => .inc
  | .incAbsX _ => .inc
  | .decZp _ => .dec
  | .decZpX _ => .dec
  | .decAbs _ => .dec
  | .decAbsX _ => .dec
  | .inx => .inx
  | .iny => .iny
  | .dex => .dex
  | .dey => .dey
  | .bcc _ => .bcc
  | .bcs _ => .bcs
  | .beq _ => .beq
  | .bmi _ => .bmi
  | .bne _ => .bne
  | .bpl _ => .bpl
  | .bvc _ => .bvc
  | .bvs _ => .bvs
  | .jmpAbs _ => .jmp
  | .jmpInd _ => .jmp
  | .jsr _ => .jsr
  | .rts => .rts
  | .rti => .rti
  | .pha => .pha
  | .php => .php
  | .pla => .pla
  | .plp => .plp
  | .clc => .clc
  | .sec => .sec
  | .cli => .cli
  | .sei => .sei
  | .cld => .cld
  | .sed => .sed
  | .clv => .clv
  | .nop => .nop
  | .brk => .brk

/-- The "written by" column of R15. -/
def flagWriters : Flag → List Mnemonic
  | .c => [.adc, .sbc, .cmp, .cpx, .cpy, .asl, .lsr, .rol, .ror, .clc, .sec, .plp, .rti]
  | .z => [.adc, .sbc, .and, .ora, .eor, .bit, .cmp, .cpx, .cpy, .asl, .lsr, .rol, .ror, .inc, .dec, .inx, .iny, .dex, .dey, .lda, .ldx, .ldy,
      .tax, .tay, .txa, .tya, .tsx, .pla, .plp, .rti]
  | .i => [.cli, .sei, .plp, .rti]
  | .d => [.cld, .sed, .plp, .rti]
  | .b => [.plp, .rti]
  | .u => []
  | .v => [.adc, .sbc, .bit, .clv, .plp, .rti]
  | .n => [.adc, .sbc, .and, .ora, .eor, .bit, .cmp, .cpx, .cpy, .asl, .lsr, .rol, .ror, .inc, .dec, .inx, .iny, .dex, .dey, .lda, .ldx, .ldy,
      .tax, .tay, .txa, .tya, .tsx, .pla, .plp, .rti]

/-- The forms that work on A itself (R84). -/
def accumulatorForms : List Instr := [.aslAcc, .lsrAcc, .rolAcc, .rorAcc]

/-- The instructions that may change a register (R10, R11). -/
def WritesReg (r : Reg) (i : Instr) : Prop :=
  match r with
  | .a => mnemonic i ∈ [.lda, .pla, .txa, .tya, .adc, .sbc, .and, .ora, .eor] ∨ i ∈ accumulatorForms
  | .x => mnemonic i ∈ [.ldx, .tax, .tsx, .inx, .dex]
  | .y => mnemonic i ∈ [.ldy, .tay, .iny, .dey]
  | .sp => mnemonic i ∈ [.pha, .php, .pla, .plp, .jsr, .rts, .rti, .txs]

/-- The instructions that may change a cell: stores, read-modify-writes on memory, pushes (R17). -/
def WritesMemory (i : Instr) : Prop :=
  mnemonic i ∈ [.sta, .stx, .sty, .asl, .lsr, .rol, .ror, .inc, .dec, .pha, .php, .jsr] ∧ i ∉ accumulatorForms

/-- The control transfers (R12). -/
def ControlTransfer (i : Instr) : Prop :=
  mnemonic i ∈ [.bcc, .bcs, .beq, .bmi, .bne, .bpl, .bvc, .bvs, .jmp, .jsr, .rts, .rti]

/-- ADC's sum t (R130, R131). -/
def adcTotal (decimal : Bool) (a m c : Nat) : Nat :=
  if decimal then
    let t := if a % 16 + m % 16 + c > 9 then a + m + c + 6 else a + m + c
    if t > 0x99 then t + 0x60 else t
  else a + m + c

/-- SBC's result before mod 256 (R132, R133). -/
def sbcTotal (decimal : Bool) (a m c : Int) : Int :=
  let d := a - m - (1 - c)
  if decimal then
    let t := if a % 16 - m % 16 - (1 - c) < 0 then d - 6 else d
    if d < 0 then t - 0x60 else t
  else d

/-- The number a packed BCD byte stands for. -/
def bcd (v : Byte) : Nat := v.toNat / 16 * 10 + v.toNat % 16

/-- Both nibbles are decimal digits. -/
def ValidBcd (v : Byte) : Prop := v.toNat / 16 ≤ 9 ∧ v.toNat % 16 ≤ 9

/-- What shifts and rotates do to the bits, bit by bit, with the old carry (R150 to R153). -/
def shiftedBit (k : ShiftKind) (c : Bool) (v : Byte) (j : Nat) : Bool :=
  match k with
  | .asl => decide (j ≠ 0) && v.getLsbD (j - 1)
  | .lsr => v.getLsbD (j + 1)
  | .rol => if j = 0 then c else v.getLsbD (j - 1)
  | .ror => if j = 7 then c else v.getLsbD (j + 1)

/-- The bit shifted out. -/
def shiftedOut (k : ShiftKind) (v : Byte) : Bool :=
  match k with
  | .asl => v.getLsbD 7
  | .lsr => v.getLsbD 0
  | .rol => v.getLsbD 7
  | .ror => v.getLsbD 0

end Sys2Proof.Forms

open Sys2Proof Sys2Proof.Machine Sys2Proof.Forms

/-! ### Decoding and fetching -/

/-- 30_encoding.md section 6, the last column of R67's table: the bytes written out there decode to the instruction that stands beside
them. Rests on the spec's own decisions D15, D33. -/
def Obligations.WrittenOutBytesDecode : Prop :=
  decode [0x18] = .ok (.clc, []) ∧ decode [0x0A] = .ok (.aslAcc, []) ∧ decode [0xA9, 0x10] = .ok (.ldaImm 0x10, []) ∧
  decode [0xA5, 0x10] = .ok (.ldaZp 0x10, []) ∧ decode [0xB5, 0x10] = .ok (.ldaZpX 0x10, []) ∧
  decode [0xB6, 0x10] = .ok (.ldxZpY 0x10, []) ∧ decode [0xAD, 0x34, 0x12] = .ok (.ldaAbs 0x1234, []) ∧
  decode [0xBD, 0x34, 0x12] = .ok (.ldaAbsX 0x1234, []) ∧ decode [0xB9, 0x34, 0x12] = .ok (.ldaAbsY 0x1234, []) ∧
  decode [0x6C, 0x34, 0x12] = .ok (.jmpInd 0x1234, []) ∧ decode [0xA1, 0x10] = .ok (.ldaIndX 0x10, []) ∧
  decode [0xB1, 0x10] = .ok (.ldaIndY 0x10, []) ∧ decode [0xD0, 0xF9] = .ok (.bne 0xF9, [])

/-- R60, R62, R66: every instruction, with every operand, is read back from its encoding, whatever follows it. Rests on the spec's own
decision D15. -/
def Obligations.DecodeOfEncodeIsTheInstruction : Prop :=
  ∀ (i : Instr) (rest : List Byte), decode (encode i ++ rest) = .ok (i, rest)

/-- R60, R62, R65: each sequence of bytes has one meaning: what decodes to an instruction begins with its encoding. Rests on the
spec's own decision D15. -/
def Obligations.EncodeOfDecodedIsTheBytes : Prop :=
  ∀ (bs rest : List Byte) (i : Instr), decode bs = .ok (i, rest) → bs = encode i ++ rest

/-- R64, R211: exactly the 105 listed bytes are undefined: STEP and EXEC of one return UNKNOWN_OPCODE with the byte and change
nothing, whatever follows it; with any other opcode byte, whatever its operand bytes, neither ever does. -/
def Obligations.UndefinedOpcodesAreReportedAndChangeNothing : Prop :=
  undefinedOpcodes.length = 105 ∧
  (∀ op ∈ undefinedOpcodes, ∀ s,
    perform (.exec op) s = (s, .unknownOpcode op) ∧
    (memRead s.pc s = .ok op → step s = .fault (.unknownOpcode op) ∧ perform .step s = (s, .unknownOpcode op))) ∧
  (∀ op, op ∉ undefinedOpcodes → ∀ s op',
    (perform (.exec op) s).2 ≠ .unknownOpcode op' ∧
    (memRead s.pc s = .ok op → step s ≠ .fault (.unknownOpcode op')))

/-- R80, R81: when the bytes at PC decode to an instruction, STEP is that instruction run at this state; nothing is added
around it. STEP is EXEC of the byte at PC, and BUS_ERROR(PC) where there is none. -/
def Obligations.StepRunsTheDecodedInstruction : Prop :=
  ∀ s : State,
    (∀ (bs : List Byte) (i : Instr), decode bs = .ok (i, []) → HoldsBytes s s.pc bs → step s = exec i s) ∧
    (∀ op, s.busRead s.pc.toNat = some op → step s = execOpcode op s) ∧
    (s.cfg.busSize ≤ s.pc.toNat → step s = .fault (.busError s.pc) ∧ perform .step s = (s, .busError s.pc))

/-- R81: EXEC(op) runs op with the operand bytes at PC + 1 and PC + 2, whatever byte is at PC; an undefined op makes no access at all,
and the host sees what `exec` answers. Rests on the spec's own decision D32. -/
def Obligations.ExecTakesItsOperandsAfterPc : Prop :=
  ∀ (s : State) (op : Byte),
    (∀ (operands : List Byte) (i : Instr), decode (op :: operands) = .ok (i, []) →
      HoldsBytes s (s.pc + 1) operands → execOpcode op s = exec i s) ∧
    (∀ operands, decode (op :: operands) = .error (.undefinedOpcode op) → execOpcode op s = .fault (.unknownOpcode op)) ∧
    (∀ s', execOpcode op s = .next s' → perform (.exec op) s = (s', .ok)) ∧
    (∀ a, execOpcode op s = .fault (.busError a) → perform (.exec op) s = (s, .busError a)) ∧
    (∀ op', execOpcode op s = .fault (.unknownOpcode op') → perform (.exec op) s = (s, .unknownOpcode op'))

/-- R103, R216: the checks stand in one order: PC, the opcode, PC + 1, PC + 2; pointer low byte, pointer high byte, data. The first
access out of range is the one reported. Rests on the spec's own decisions D19, D29. -/
def Obligations.FirstFailingCheckIsReported : Prop :=
  ∀ s : State,
    (s.cfg.busSize ≤ s.pc.toNat → step s = .fault (.busError s.pc)) ∧
    (∀ op, memRead s.pc s = .ok op → op ∈ undefinedOpcodes → step s = .fault (.unknownOpcode op)) ∧
    (∀ i op d, encode i = [op, d] → memRead s.pc s = .ok op → s.cfg.busSize ≤ (s.pc + 1).toNat →
      step s = .fault (.busError (s.pc + 1))) ∧
    (∀ i op lo hi, encode i = [op, lo, hi] → memRead s.pc s = .ok op →
      (s.cfg.busSize ≤ (s.pc + 1).toNat → step s = .fault (.busError (s.pc + 1))) ∧
      ((s.pc + 1).toNat < s.cfg.busSize → s.cfg.busSize ≤ (s.pc + 2).toNat → step s = .fault (.busError (s.pc + 2)))) ∧
    (∀ d z, z = d + s.x →
      (s.cfg.busSize ≤ z.toNat → effAddr (.indirectX d) s = .error (.busError (zext z))) ∧
      (z.toNat < s.cfg.busSize → s.cfg.busSize ≤ (z + 1).toNat →
        effAddr (.indirectX d) s = .error (.busError (zext (z + 1))))) ∧
    (∀ d,
      (s.cfg.busSize ≤ d.toNat → effAddr (.indirectY d) s = .error (.busError (zext d))) ∧
      (d.toNat < s.cfg.busSize → s.cfg.busSize ≤ (d + 1).toNat →
        effAddr (.indirectY d) s = .error (.busError (zext (d + 1))))) ∧
    (∀ m ea c, effAddr m s = .ok (ea, c) → s.cfg.busSize ≤ ea.toNat → readSource (.mem m) s = .error (.busError ea))

/-- R64, R210, R216: STEP never answers without a meaning, and a fault it reports is the right one: an undefined opcode byte
that stands at PC, or an address that does not exist. -/
def Obligations.StepFaultsOnlyAsTheSpecSays : Prop :=
  ∀ s : State,
    (∀ q, step s ≠ .refused q) ∧
    (∀ op, step s = .fault (.unknownOpcode op) → memRead s.pc s = .ok op ∧ op ∈ undefinedOpcodes) ∧
    (∀ a, step s = .fault (.busError a) → s.cfg.busSize ≤ a.toNat)

/-- R51, R212: with N = 65536 (or more) every instruction completes, in every state, with every operand. Rests on the spec's own
decision D2. -/
def Obligations.EveryInstructionCompletesOnTheFullBus : Prop :=
  ∀ (i : Instr) (s : State), 65536 ≤ s.cfg.busSize → ∃ s', exec i s = .next s'

/-! ### Addressing modes, flags, stack -/

/-- R86 to R90, R92, R93, R96: the effective address of every memory mode, in numbers, and the page cross it reports. Rests on the
spec's own decisions D6, D7. -/
def Obligations.EffectiveAddressOfEachMode : Prop :=
  ∀ s : State,
    (∀ d, ∃ ea, effAddr (.zeroPage d) s = .ok (ea, false) ∧ ea.toNat = d.toNat) ∧
    (∀ d, ∃ ea, effAddr (.zeroPageX d) s = .ok (ea, false) ∧ ea.toNat = (d.toNat + s.x.toNat) % 256) ∧
    (∀ d, ∃ ea, effAddr (.zeroPageY d) s = .ok (ea, false) ∧ ea.toNat = (d.toNat + s.y.toNat) % 256) ∧
    (∀ w, effAddr (.absolute w) s = .ok (w, false)) ∧
    (∀ w, ∃ ea, effAddr (.absoluteX w) s = .ok (ea, decide (w.toNat / 256 ≠ ea.toNat / 256)) ∧
      ea.toNat = (w.toNat + s.x.toNat) % 65536) ∧
    (∀ w, ∃ ea, effAddr (.absoluteY w) s = .ok (ea, decide (w.toNat / 256 ≠ ea.toNat / 256)) ∧
      ea.toNat = (w.toNat + s.y.toNat) % 65536) ∧
    (∀ d lo hi, s.busRead ((d.toNat + s.x.toNat) % 256) = some lo → s.busRead ((d.toNat + s.x.toNat + 1) % 256) = some hi →
      ∃ ea, effAddr (.indirectX d) s = .ok (ea, false) ∧ ea.toNat = hi.toNat * 256 + lo.toNat) ∧
    (∀ d lo hi, s.busRead d.toNat = some lo → s.busRead ((d.toNat + 1) % 256) = some hi →
      ∃ ea, effAddr (.indirectY d) s = .ok (ea, decide (hi.toNat ≠ ea.toNat / 256)) ∧
        ea.toNat = (hi.toNat * 256 + lo.toNat + s.y.toNat) % 65536)

/-- R83, R85: an immediate operand is the byte itself; a memory operand is the byte READ returns at the effective address. -/
def Obligations.OperandReadIsTheByteAtItsAddress : Prop :=
  ∀ s : State,
    (∀ v, readSource (.imm v) s = .ok (v, false)) ∧
    (∀ m ea c v, effAddr m s = .ok (ea, c) → s.busRead ea.toNat = some v → readSource (.mem m) s = .ok (v, c)) ∧
    (∀ m f, effAddr m s = .error f → readSource (.mem m) s = .error f)

/-- R13, R97, R99: the fields of P: SetZN writes Z and N and nothing else, WriteP stores the byte with bit 5 set, a single-flag write
changes one bit. Rests on the spec's own decisions D4, D12. -/
def Obligations.StatusByteWrites : Prop :=
  ∀ p v : Byte,
    (flagOf (withZN v p) .z = decide (v.toNat = 0) ∧ flagOf (withZN v p) .n = decide (128 ≤ v.toNat) ∧
      ∀ f, f ≠ .z → f ≠ .n → flagOf (withZN v p) f = flagOf p f) ∧
    (∀ k, k < 8 → (statusByte v).getLsbD k = (decide (k = 5) || v.getLsbD k)) ∧
    (∀ f b k, k < 8 → (withFlag f b p).getLsbD k = if k = f.bit then b else p.getLsbD k)

/-- R98: Push writes the slot SP names, then SP goes down; Pop moves SP up, then reads; both wrap in the stack page and neither checks
a limit. Rests on the spec's own decision D5. -/
def Obligations.PushAndPopUseTheStackPage : Prop :=
  ∀ (s : State) (v : Byte),
    (pushSlot s 0 < s.cfg.busSize → ∃ s', push v s = .ok s' ∧ StoresByte (pushSlot s 0) v s s' ∧
      s'.sp.toNat = (s.sp.toNat + 255) % 256 ∧ KeepsRegs [.sp] s s' ∧ s'.pc = s.pc ∧ s'.p = s.p ∧ s'.cyc = s.cyc) ∧
    (s.cfg.busSize ≤ pushSlot s 0 → push v s = .error (.busError (BitVec.ofNat 16 (pushSlot s 0)))) ∧
    (∀ b, s.busRead (popSlot s 1) = some b → ∃ s', pop s = .ok (b, s') ∧ KeepsBus s s' ∧
      s'.sp.toNat = (s.sp.toNat + 1) % 256 ∧ KeepsRegs [.sp] s s' ∧ s'.pc = s.pc ∧ s'.p = s.p ∧ s'.cyc = s.cyc) ∧
    (s.cfg.busSize ≤ popSlot s 1 → pop s = .error (.busError (BitVec.ofNat 16 (popSlot s 1))))

/-! ### Instructions: what each does, what it leaves alone, and that it completes -/

/-- R110, R111, R112: LDA, LDX, LDY, every form. -/
def Obligations.LoadsSetRegisterZAndN : Prop :=
  ∀ r op i src t, LoadForm r op i src t →
    encode i = op :: sourceBytes src ∧
    ∀ s,
      (∀ v crossed, readSource src s = .ok (v, crossed) →
        ∃ s', exec i s = .next s' ∧ s'.reg r = v ∧ ZNFollow v s' ∧ KeepsRegs [r] s s' ∧ KeepsFlags [.z, .n] s s' ∧
          KeepsBus s s' ∧ Advances t.length (cost t crossed) s s') ∧
      (∀ f, readSource src s = .error f → exec i s = .fault f)

/-- R113, R114, R115: STA, STX, STY, every form: the byte goes to the effective address and to nothing else, no flag and no register
changes, and no page cross costs a cycle. Rests on the spec's own decision D16. -/
def Obligations.StoresWriteTheEffectiveAddressOnly : Prop :=
  ∀ r op i m t, StoreForm r op i m t →
    encode i = op :: modeBytes m ∧
    ∀ s,
      (∀ ea crossed, effAddr m s = .ok (ea, crossed) →
        (ea.toNat < s.cfg.busSize →
          ∃ s', exec i s = .next s' ∧ StoresByte ea.toNat (s.reg r) s s' ∧ KeepsRegs [] s s' ∧ KeepsFlags [] s s' ∧
            Advances t.length t.base s s') ∧
        (s.cfg.busSize ≤ ea.toNat → exec i s = .fault (.busError ea))) ∧
      (∀ f, effAddr m s = .error f → exec i s = .fault f)

/-- R116 to R121: TAX, TAY, TXA, TYA, TSX move a register and set Z and N; TXS moves X to SP and sets no flag. -/
def Obligations.TransfersCopyRegisters : Prop :=
  (∀ src dst op i, TransferForm src dst op i →
    encode i = [op] ∧
    ∀ s, ∃ s', exec i s = .next s' ∧ s'.reg dst = s.reg src ∧ ZNFollow (s.reg src) s' ∧ KeepsRegs [dst] s s' ∧
      KeepsFlags [.z, .n] s s' ∧ KeepsBus s s' ∧ Advances 1 2 s s') ∧
  encode .txs = [0x9A] ∧
  ∀ s, ∃ s', exec .txs s = .next s' ∧ s'.sp = s.x ∧ KeepsRegs [.sp] s s' ∧ KeepsFlags [] s s' ∧ KeepsBus s s' ∧
    Advances 1 2 s s'

/-- R130, R131: ADC, every form, binary and decimal, for valid and invalid BCD alike (the decimal conditions are the spec's
decision D13). -/
def Obligations.AdcSumAndFlags : Prop :=
  ∀ op i src t, AdcForm op i src t →
    encode i = op :: sourceBytes src ∧
    ∀ s,
      (∀ m crossed, readSource src s = .ok (m, crossed) →
        ∃ s', exec i s = .next s' ∧
          s'.a.toNat = adcTotal (s.flag .d) s.a.toNat m.toNat (s.flag .c).toNat % 256 ∧
          s'.flag .c = decide (255 < adcTotal (s.flag .d) s.a.toNat m.toNat (s.flag .c).toNat) ∧
          s'.flag .v = ((s.a.getLsbD 7 == m.getLsbD 7) && (s.a.getLsbD 7 != s'.a.getLsbD 7)) ∧
          ZNFollow s'.a s' ∧ KeepsRegs [.a] s s' ∧ KeepsFlags [.c, .v, .z, .n] s s' ∧ KeepsBus s s' ∧
          Advances t.length (cost t crossed) s s') ∧
      (∀ f, readSource src s = .error f → exec i s = .fault f)

/-- R132, R133: SBC, every form, binary and decimal; C = 1 means no borrow (the decimal conditions are the spec's decision
D13). -/
def Obligations.SbcDifferenceAndFlags : Prop :=
  ∀ op i src t, SbcForm op i src t →
    encode i = op :: sourceBytes src ∧
    ∀ s,
      (∀ m crossed, readSource src s = .ok (m, crossed) →
        ∃ s', exec i s = .next s' ∧
          (s'.a.toNat : Int) = sbcTotal (s.flag .d) s.a.toNat m.toNat (s.flag .c).toNat % 256 ∧
          s'.flag .c = decide ((0 : Int) ≤ (s.a.toNat : Int) - m.toNat - (1 - (s.flag .c).toNat)) ∧
          s'.flag .v = ((s.a.getLsbD 7 != m.getLsbD 7) && (s.a.getLsbD 7 != s'.a.getLsbD 7)) ∧
          ZNFollow s'.a s' ∧ KeepsRegs [.a] s s' ∧ KeepsFlags [.c, .v, .z, .n] s s' ∧ KeepsBus s s' ∧
          Advances t.length (cost t crossed) s s') ∧
      (∀ f, readSource src s = .error f → exec i s = .fault f)

/-- R134, R135, R136: AND, ORA, EOR, every form, bit by bit. -/
def Obligations.LogicCombinesBitByBit : Prop :=
  ∀ g op i src t, LogicForm g op i src t →
    encode i = op :: sourceBytes src ∧
    ∀ s,
      (∀ m crossed, readSource src s = .ok (m, crossed) →
        ∃ s', exec i s = .next s' ∧ (∀ k, k < 8 → s'.a.getLsbD k = g (s.a.getLsbD k) (m.getLsbD k)) ∧ ZNFollow s'.a s' ∧
          KeepsRegs [.a] s s' ∧ KeepsFlags [.z, .n] s s' ∧ KeepsBus s s' ∧ Advances t.length (cost t crossed) s s') ∧
      (∀ f, readSource src s = .error f → exec i s = .fault f)

/-- R137: BIT, both forms: Z from A and M, N and V from bits 7 and 6 of M; nothing else. Rests on the spec's own decision D14. -/
def Obligations.BitTestsMemoryBits : Prop :=
  ∀ op i src t, BitForm op i src t →
    encode i = op :: sourceBytes src ∧
    ∀ s,
      (∀ m crossed, readSource src s = .ok (m, crossed) →
        ∃ s', exec i s = .next s' ∧
          (s'.flag .z = true ↔ ∀ k, k < 8 → ¬ (s.a.getLsbD k = true ∧ m.getLsbD k = true)) ∧
          s'.flag .n = m.getLsbD 7 ∧ s'.flag .v = m.getLsbD 6 ∧
          KeepsRegs [] s s' ∧ KeepsFlags [.z, .n, .v] s s' ∧ KeepsBus s s' ∧ Advances t.length t.base s s') ∧
      (∀ f, readSource src s = .error f → exec i s = .fault f)

/-- R138, R139, R140: CMP, CPX, CPY, every form: an unsigned comparison, binary whatever D is, that changes flags only. -/
def Obligations.ComparesSetCarryZAndN : Prop :=
  ∀ r op i src t, CompareForm r op i src t →
    encode i = op :: sourceBytes src ∧
    ∀ s,
      (∀ m crossed, readSource src s = .ok (m, crossed) →
        ∃ s', exec i s = .next s' ∧ s'.flag .c = decide (m.toNat ≤ (s.reg r).toNat) ∧ s'.flag .z = decide (s.reg r = m) ∧
          s'.flag .n = decide (128 ≤ ((s.reg r).toNat + 256 - m.toNat) % 256) ∧
          KeepsRegs [] s s' ∧ KeepsFlags [.c, .z, .n] s s' ∧ KeepsBus s s' ∧ Advances t.length (cost t crossed) s s') ∧
      (∀ f, readSource src s = .error f → exec i s = .fault f)

/-- R150 to R153: ASL, LSR, ROL, ROR, the Accumulator form and every memory form, bit by bit. The memory forms have no indirect mode,
so their effective address always resolves. Rests on the spec's own decision D16. -/
def Obligations.ShiftsMoveBitsThroughCarry : Prop :=
  ∀ k op i pl t, ShiftForm k op i pl t →
    encode i = op :: placeBytes pl ∧
    ∀ s,
      (pl = .acc →
        ∃ s', exec i s = .next s' ∧ (∀ j, j < 8 → s'.a.getLsbD j = shiftedBit k (s.flag .c) s.a j) ∧
          s'.flag .c = shiftedOut k s.a ∧ ZNFollow s'.a s' ∧ KeepsRegs [.a] s s' ∧ KeepsFlags [.c, .z, .n] s s' ∧
          KeepsBus s s' ∧ Advances t.length t.base s s') ∧
      (∀ m, pl = .mem m → ∃ ea, (∃ crossed, effAddr m s = .ok (ea, crossed)) ∧
        (∀ v, s.busRead ea.toNat = some v →
          ∃ s' r, exec i s = .next s' ∧ (∀ j, j < 8 → r.getLsbD j = shiftedBit k (s.flag .c) v j) ∧
            s'.flag .c = shiftedOut k v ∧ ZNFollow r s' ∧ StoresByte ea.toNat r s s' ∧ KeepsRegs [] s s' ∧
            KeepsFlags [.c, .z, .n] s s' ∧ Advances t.length t.base s s') ∧
        (s.cfg.busSize ≤ ea.toNat → exec i s = .fault (.busError ea)))

/-- R154, R155: INC and DEC, every form: one cell plus or minus 1 mod 256; C and V stay. Rests on the spec's own decision D16. -/
def Obligations.IncAndDecStepOneCell : Prop :=
  ∀ k op i m t, CellStepForm k op i m t →
    encode i = op :: modeBytes m ∧
    ∀ s,
      ∃ ea, (∃ crossed, effAddr m s = .ok (ea, crossed)) ∧
        (∀ v, s.busRead ea.toNat = some v →
          ∃ s' r, exec i s = .next s' ∧ r.toNat = (v.toNat + k) % 256 ∧ StoresByte ea.toNat r s s' ∧ ZNFollow r s' ∧
            KeepsRegs [] s s' ∧ KeepsFlags [.z, .n] s s' ∧ Advances t.length t.base s s') ∧
        (s.cfg.busSize ≤ ea.toNat → exec i s = .fault (.busError ea))

/-- R156 to R159: INX, INY, DEX, DEY: one register plus or minus 1 mod 256; C and V stay. -/
def Obligations.IndexRegistersStepByOne : Prop :=
  ∀ k r op i, RegStepForm k r op i →
    encode i = [op] ∧
    ∀ s, ∃ s', exec i s = .next s' ∧ (s'.reg r).toNat = ((s.reg r).toNat + k) % 256 ∧ ZNFollow (s'.reg r) s' ∧
      KeepsRegs [r] s s' ∧ KeepsFlags [.z, .n] s s' ∧ KeepsBus s s' ∧ Advances 1 2 s s'

/-- R170 to R178: the eight branches, taken and not taken, with their cost; the page test is against the next instruction. Rests on
the spec's own decisions D6, D9. -/
def Obligations.BranchesGoOrFallThrough : Prop :=
  ∀ f b op i d, BranchForm f b op i d →
    encode i = [op, d] ∧
    ∀ s, ∃ (s' : State) (next target : Nat), exec i s = .next s' ∧
      next = (s.pc.toNat + 2) % 65536 ∧
      (target : Int) = ((next : Int) + d.toInt) % 65536 ∧
      (s.flag f = b → GoesTo target (2 + if next / 256 ≠ target / 256 then 2 else 1) s s') ∧
      (s.flag f ≠ b → GoesTo next 2 s s') ∧
      KeepsRegs [] s s' ∧ KeepsFlags [] s s' ∧ KeepsBus s s'

/-- R179: JMP Absolute and Indirect; the pointer's high byte comes from the next address, also across a page. Rests on the spec's own
decision D8. -/
def Obligations.JumpGoesToItsTarget : Prop :=
  ∀ w : Word,
    encode (.jmpAbs w) = [0x4C, w.lo, w.hi] ∧ encode (.jmpInd w) = [0x6C, w.lo, w.hi] ∧
    ∀ s,
      (∃ s', exec (.jmpAbs w) s = .next s' ∧ GoesTo w.toNat 3 s s' ∧ KeepsRegs [] s s' ∧ KeepsFlags [] s s' ∧
        KeepsBus s s') ∧
      (∀ lo hi, s.busRead w.toNat = some lo → s.busRead ((w.toNat + 1) % 65536) = some hi →
        ∃ s', exec (.jmpInd w) s = .next s' ∧ GoesTo (hi.toNat * 256 + lo.toNat) 5 s s' ∧ KeepsRegs [] s s' ∧
          KeepsFlags [] s s' ∧ KeepsBus s s') ∧
      (s.cfg.busSize ≤ w.toNat → exec (.jmpInd w) s = .fault (.busError w)) ∧
      (w.toNat < s.cfg.busSize → s.cfg.busSize ≤ (w + 1).toNat → exec (.jmpInd w) s = .fault (.busError (w + 1)))

/-- R180: JSR, for both values of JSR_PUSH_OFFSET: the high byte of the return address goes to the slot SP names, the low byte to the
one below (over the high byte if the two are aliases), SP ends 2 lower, every other cell is as before; if the first or else the second
slot does not exist, BUS_ERROR names it. Rests on the spec's own decisions D5, D10, D18. -/
def Obligations.JsrPushesTheReturnAddress : Prop :=
  ∀ (w : Word) (s : State),
    encode (.jsr w) = [0x20, w.lo, w.hi] ∧
    (pushSlot s 0 < s.cfg.busSize → pushSlot s 1 < s.cfg.busSize →
      ∃ (s' : State) (ret : Nat), exec (.jsr w) s = .next s' ∧
        ret = (s.pc.toNat + if s.cfg.jsrPushOffset = .two then 2 else 3) % 65536 ∧
        s'.sp.toNat = (s.sp.toNat + 254) % 256 ∧
        (∀ c, (s'.cells.cell c).toNat =
          if c = s.ref (pushSlot s 1) then ret % 256 else if c = s.ref (pushSlot s 0) then ret / 256
          else (s.cells.cell c).toNat) ∧
        (∀ b, s.ref b ≠ s.ref (pushSlot s 0) → s.ref b ≠ s.ref (pushSlot s 1) → s'.busRead b = s.busRead b) ∧
        s'.refs = s.refs ∧ s'.cfg = s.cfg ∧
        GoesTo w.toNat 6 s s' ∧ KeepsRegs [.sp] s s' ∧ KeepsFlags [] s s') ∧
    (s.cfg.busSize ≤ pushSlot s 0 → exec (.jsr w) s = .fault (.busError (BitVec.ofNat 16 (pushSlot s 0)))) ∧
    (pushSlot s 0 < s.cfg.busSize → s.cfg.busSize ≤ pushSlot s 1 →
      exec (.jsr w) s = .fault (.busError (BitVec.ofNat 16 (pushSlot s 1))))

/-- R181: RTS pops low then high, adds 3 - JSR_PUSH_OFFSET, SP ends 2 higher, memory and flags stay. Rests on the spec's own decisions
D5, D10. -/
def Obligations.RtsReturnsToThePoppedAddress : Prop :=
  ∀ s : State,
    encode .rts = [0x60] ∧
    (∀ lo hi, s.busRead (popSlot s 1) = some lo → s.busRead (popSlot s 2) = some hi →
      ∃ s', exec .rts s = .next s' ∧
        GoesTo ((hi.toNat * 256 + lo.toNat + if s.cfg.jsrPushOffset = .two then 1 else 0) % 65536) 6 s s' ∧
        s'.sp.toNat = (s.sp.toNat + 2) % 256 ∧ KeepsRegs [.sp] s s' ∧ KeepsFlags [] s s' ∧ KeepsBus s s') ∧
    (s.cfg.busSize ≤ popSlot s 1 → exec .rts s = .fault (.busError (BitVec.ofNat 16 (popSlot s 1)))) ∧
    (popSlot s 1 < s.cfg.busSize → s.cfg.busSize ≤ popSlot s 2 →
      exec .rts s = .fault (.busError (BitVec.ofNat 16 (popSlot s 2))))

/-- R182: RTI pops P (bit 5 forced to 1), then PC low and high, unadjusted; SP ends 3 higher, memory stays. Rests on the spec's own
decisions D5, D11, D12. -/
def Obligations.RtiRestoresStatusAndPc : Prop :=
  ∀ s : State,
    encode .rti = [0x40] ∧
    (∀ p lo hi, s.busRead (popSlot s 1) = some p → s.busRead (popSlot s 2) = some lo → s.busRead (popSlot s 3) = some hi →
      ∃ s', exec .rti s = .next s' ∧ GoesTo (hi.toNat * 256 + lo.toNat) 6 s s' ∧
        (∀ f, s'.flag f = (decide (f = .u) || flagOf p f)) ∧
        s'.sp.toNat = (s.sp.toNat + 3) % 256 ∧ KeepsRegs [.sp] s s' ∧ KeepsBus s s') ∧
    (s.cfg.busSize ≤ popSlot s 1 → exec .rti s = .fault (.busError (BitVec.ofNat 16 (popSlot s 1)))) ∧
    (popSlot s 1 < s.cfg.busSize → s.cfg.busSize ≤ popSlot s 2 →
      exec .rti s = .fault (.busError (BitVec.ofNat 16 (popSlot s 2)))) ∧
    (popSlot s 1 < s.cfg.busSize → popSlot s 2 < s.cfg.busSize → s.cfg.busSize ≤ popSlot s 3 →
      exec .rti s = .fault (.busError (BitVec.ofNat 16 (popSlot s 3))))

/-- R190, R191: PHA pushes A, PHP pushes P as stored; no flag changes. Rests on the spec's own decisions D5, D12. -/
def Obligations.PhaAndPhpPushOneByte : Prop :=
  ∀ (s : State) (i : Instr) (op v : Byte),
    ((i, op, v) = (.pha, 0x48, s.a) ∨ (i, op, v) = (.php, 0x08, s.p)) →
    encode i = [op] ∧
    (pushSlot s 0 < s.cfg.busSize →
      ∃ s', exec i s = .next s' ∧ StoresByte (pushSlot s 0) v s s' ∧ s'.sp.toNat = (s.sp.toNat + 255) % 256 ∧
        KeepsRegs [.sp] s s' ∧ KeepsFlags [] s s' ∧ Advances 1 3 s s') ∧
    (s.cfg.busSize ≤ pushSlot s 0 → exec i s = .fault (.busError (BitVec.ofNat 16 (pushSlot s 0))))

/-- R192, R193: PLA pulls A and sets Z and N; PLP pulls P, all eight bits as pulled but bit 5, which is 1; the cell stays. Rests on
the spec's own decisions D5, D12. -/
def Obligations.PlaAndPlpPullOneByte : Prop :=
  ∀ s : State,
    encode .pla = [0x68] ∧ encode .plp = [0x28] ∧
    (∀ v, s.busRead (popSlot s 1) = some v →
      (∃ s', exec .pla s = .next s' ∧ s'.a = v ∧ ZNFollow v s' ∧ s'.sp.toNat = (s.sp.toNat + 1) % 256 ∧
        KeepsRegs [.a, .sp] s s' ∧ KeepsFlags [.z, .n] s s' ∧ KeepsBus s s' ∧ Advances 1 4 s s') ∧
      (∃ s', exec .plp s = .next s' ∧ (∀ f, s'.flag f = (decide (f = .u) || flagOf v f)) ∧
        s'.sp.toNat = (s.sp.toNat + 1) % 256 ∧ KeepsRegs [.sp] s s' ∧ KeepsBus s s' ∧ Advances 1 4 s s')) ∧
    (s.cfg.busSize ≤ popSlot s 1 →
      exec .pla s = .fault (.busError (BitVec.ofNat 16 (popSlot s 1))) ∧
      exec .plp s = .fault (.busError (BitVec.ofNat 16 (popSlot s 1))))

/-- R194 to R200: CLC, SEC, CLI, SEI, CLD, SED, CLV write one flag and nothing else. -/
def Obligations.FlagInstructionsWriteOneFlag : Prop :=
  ∀ f b op i, FlagForm f b op i →
    encode i = [op] ∧
    ∀ s, ∃ s', exec i s = .next s' ∧ s'.flag f = b ∧ KeepsFlags [f] s s' ∧ KeepsRegs [] s s' ∧ KeepsBus s s' ∧
      Advances 1 2 s s'

/-- R201, R203, R215: NOP changes PC and CYC only; BRK is a stub: PC + 1 and 7 cycles, no flag, no push, no vector. Rests on the
spec's own decision D35. -/
def Obligations.NopAndBrkChangeNothingElse : Prop :=
  encode .nop = [0xEA] ∧ encode .brk = [0x00] ∧
  ∀ s,
    (∃ s', exec .nop s = .next s' ∧ KeepsRegs [] s s' ∧ KeepsFlags [] s s' ∧ KeepsBus s s' ∧ Advances 1 2 s s') ∧
    (∃ s', exec .brk s = .next s' ∧ KeepsRegs [] s s' ∧ KeepsFlags [] s s' ∧ KeepsBus s s' ∧ Advances 1 7 s s')

/-! ### Rules about the whole machine -/

/-- R14, R15: an instruction that changes a flag is one of those R15 lists as writers of that flag; none is a writer of U, where U is
1 as the invariant says (Obligations.StepKeepsInvariant). Rests on the spec's own decision D17. -/
def Obligations.FlagsChangeOnlyByTheirWriters : Prop :=
  ∀ (i : Instr) (s s' : State) (f : Flag), s.flag .u = true → exec i s = .next s' → s'.flag f ≠ s.flag f →
    mnemonic i ∈ flagWriters f

/-- R10, R11: A, X, Y and SP change only by the instructions the spec names as their writers. -/
def Obligations.RegistersChangeOnlyByTheirWriters : Prop :=
  ∀ (i : Instr) (s s' : State) (r : Reg), exec i s = .next s' → s'.reg r ≠ s.reg r → WritesReg r i

/-- R17, R122, R141, R160, R202: only stores, memory read-modify-writes and pushes change a cell; after any other instruction every
cell is as before and every address reads as before. -/
def Obligations.OnlyStoresAndPushesChangeMemory : Prop :=
  ∀ (i : Instr) (s s' : State), exec i s = .next s' → ¬ WritesMemory i →
    s'.cells = s.cells ∧ ∀ b, s'.busRead b = s.busRead b

/-- R12, R82: every instruction that is no control transfer leaves PC at the byte after its last one. Rests on the spec's own decision
D6. -/
def Obligations.PcMovesPastTheInstruction : Prop :=
  ∀ (i : Instr) (s s' : State), exec i s = .next s' → ¬ ControlTransfer i →
    s'.pc.toNat = (s.pc.toNat + (encode i).length) % 65536

/-- R16, R238: an instruction that completes adds at least 2 and at most 7 cycles. Rests on the spec's own decision D3. -/
def Obligations.EveryInstructionCostsTwoToSevenCycles : Prop :=
  ∀ (i : Instr) (s s' : State), exec i s = .next s' →
    ∃ n, 2 ≤ n ∧ n ≤ 7 ∧ s'.cyc = (s.cyc + n) % 2 ^ s.cfg.cycWidth

/-- R18, R38: no step changes the alias table or a parameter. -/
def Obligations.StepsKeepAliasesAndParameters : Prop :=
  ∀ s s' : State, step s = .next s' → s'.refs = s.refs ∧ s'.cfg = s.cfg

/-- R8, R14, R16, R17, R18: legal parameters, canonical cells and aliases in range, P.U = 1 and CYC within its width are kept by
every step. -/
def Obligations.StepKeepsInvariant : Prop :=
  ∀ s s' : State, s.Inv → step s = .next s' → s'.Inv

/-- The invariant holds of a newly created CORE with any legal parameters and any canonical launch image, and of State.reset. Rests on
the spec's own decisions D23, D24 (log 5) and on the model's choice of the empty image and of the canonical form (log 4). -/
def Obligations.CreationMeetsInvariant : Prop :=
  State.reset.Inv ∧
  ∀ (cfg : Config) (image : Memory), cfg.wf = true → image.wf → image.within cfg.busSize → (State.create cfg image).Inv

/-- R6, R14, R18: every operation of the host, RESET and MIRROR among them, keeps the invariant, whatever its outcome. -/
def Obligations.OperationsKeepInvariant : Prop :=
  ∀ (r : Request) (s : State), s.Inv → (perform r s).1.Inv

/-- R14, R210, R212, R239: with N = 65536 a run of any length stops only on an undefined opcode byte, and while it has not stopped the
invariant holds and N and the alias table are those of the start. Rests on the spec's own decision D28. -/
def Obligations.RunsStopOnlyOnUndefinedOpcodes : Prop :=
  ∀ (k : Nat) (s : State), s.Inv → s.cfg.busSize = 65536 →
    (∀ s' : State, Sys2Proof.core.run k s = .next s' → s'.Inv ∧ s'.cfg = s.cfg ∧ s'.refs = s.refs) ∧
    (∀ f : Fault, Sys2Proof.core.run k s = .fault f → ∃ op ∈ undefinedOpcodes, f = .unknownOpcode op) ∧
    (∀ q : Refusal, Sys2Proof.core.run k s ≠ .refused q)

/-- R19, R38: mirroring is transparent to the CPU: a step cannot tell two states apart that have the same registers, read the same
at every address and have the same pairs of aliases, whichever backing cells stand behind them and whatever hidden cells hold;
and it leaves them so related. -/
def Obligations.MirroringIsTransparentToTheCpu : Prop :=
  ∀ s t : State, SameView s t → outcomesAgree SameView (step s) (step t)

/-- R16, R238: nothing depends on CYC: steps from two states that differ in CYC only end alike, with next states that differ in CYC
only, by the same cost. -/
def Obligations.NothingDependsOnCyc : Prop :=
  ∀ (s : State) (n : Nat),
    outcomesAgree
      (fun t u => { t with cyc := 0 } = { u with cyc := 0 } ∧
        ∃ k, t.cyc = (s.cyc + k) % 2 ^ s.cfg.cycWidth ∧ u.cyc = (n + k) % 2 ^ s.cfg.cycWidth)
      (step s) (step { s with cyc := n })

/-- R47: a store is seen by the very next fetch: if the address after the store instruction, or an alias of it, is where the byte
went, the next step runs that byte as its opcode. -/
def Obligations.StoreIsSeenByTheNextFetch : Prop :=
  ∀ r op i m t, StoreForm r op i m t → ∀ (s : State) (ea : Word) (c : Bool),
    effAddr m s = .ok (ea, c) → ea.toNat < s.cfg.busSize →
    (s.pc + BitVec.ofNat 16 t.length).toNat < s.cfg.busSize →
    s.ref (s.pc + BitVec.ofNat 16 t.length).toNat = s.ref ea.toNat →
    ∃ s', exec i s = .next s' ∧ step s' = execOpcode (s.reg r) s'

/-- 40_dispatch_addressing.md section 4: a value stored through one mode is read back through every mode that resolves to the same
address or an alias of it. -/
def Obligations.StoreThenReadGivesTheByte : Prop :=
  ∀ r op i m t, StoreForm r op i m t → ∀ (s : State) (ea : Word) (c : Bool),
    effAddr m s = .ok (ea, c) → ea.toNat < s.cfg.busSize →
    ∃ s', exec i s = .next s' ∧
      ∀ (m' : MemMode) (ea' : Word) (c' : Bool), effAddr m' s' = .ok (ea', c') → ea'.toNat < s.cfg.busSize →
        s'.ref ea'.toNat = s'.ref ea.toNat → readSource (.mem m') s' = .ok (s.reg r, c')

/-- R190 to R193: PHA then PLA restores A and SP, with Z and N of A; PHP then PLP restores the flags and SP. Rests on the spec's own
decisions D5, D12. -/
def Obligations.PushThenPullRestores : Prop :=
  ∀ s : State, pushSlot s 0 < s.cfg.busSize →
    (∃ s1 s2, exec .pha s = .next s1 ∧ exec .pla s1 = .next s2 ∧ KeepsRegs [] s s2 ∧ ZNFollow s.a s2 ∧
      KeepsFlags [.z, .n] s s2) ∧
    (∃ s1 s2, exec .php s = .next s1 ∧ exec .plp s1 = .next s2 ∧ KeepsRegs [] s s2 ∧ KeepsFlags [.u] s s2 ∧
      s2.flag .u = true)

/-- R180, R181: JSR then RTS goes to the instruction after the JSR with SP restored, for both values of JSR_PUSH_OFFSET, if the two
stack slots exist and are no aliases of one another. Rests on the spec's own decision D10. -/
def Obligations.JsrThenRtsReturns : Prop :=
  ∀ (s : State) (w : Word), pushSlot s 0 < s.cfg.busSize → pushSlot s 1 < s.cfg.busSize →
    s.ref (pushSlot s 0) ≠ s.ref (pushSlot s 1) →
    ∃ s1 s2, exec (.jsr w) s = .next s1 ∧ exec .rts s1 = .next s2 ∧ s2.pc.toNat = (s.pc.toNat + 3) % 65536 ∧
      KeepsRegs [] s s2 ∧ KeepsFlags [] s s2 ∧ s2.cyc = (s.cyc + 12) % 2 ^ s.cfg.cycWidth

/-- R130, R132: in binary mode SBC of M leaves the same A and the same flags as ADC of the one's complement of M. -/
def Obligations.BinarySbcIsAdcOfComplement : Prop :=
  ∀ op i src t op' i' src' t', SbcForm op i src t → AdcForm op' i' src' t' →
    ∀ (s : State) (m : Byte) (c c' : Bool), s.flag .d = false →
      readSource src s = .ok (m, c) → readSource src' s = .ok (~~~m, c') →
      ∃ u v, exec i s = .next u ∧ exec i' s = .next v ∧ u.a = v.a ∧ u.p = v.p

/-- R131: in decimal mode, for valid BCD operands, ADC leaves the two-digit BCD sum in A and the decimal carry in C. Rests on the
spec's own decision D13. -/
def Obligations.DecimalAdcAddsBcd : Prop :=
  ∀ op i src t, AdcForm op i src t → ∀ (s : State) (m : Byte) (c : Bool),
    s.flag .d = true → readSource src s = .ok (m, c) → ValidBcd s.a → ValidBcd m →
    ∃ s', exec i s = .next s' ∧ ValidBcd s'.a ∧
      bcd s'.a + 100 * (s'.flag .c).toNat = bcd s.a + bcd m + (s.flag .c).toNat

/-- R133: in decimal mode, for valid BCD operands, SBC leaves the two-digit BCD difference in A, plus 100 when C says a borrow
occurred. Rests on the spec's own decision D13. -/
def Obligations.DecimalSbcSubtractsBcd : Prop :=
  ∀ op i src t, SbcForm op i src t → ∀ (s : State) (m : Byte) (c : Bool),
    s.flag .d = true → readSource src s = .ok (m, c) → ValidBcd s.a → ValidBcd m →
    ∃ s', exec i s = .next s' ∧ ValidBcd s'.a ∧
      bcd s'.a + bcd m + (1 - (s.flag .c).toNat) = bcd s.a + 100 * (1 - (s'.flag .c).toNat)

/-! ### The host's operations -/

/-- R20, R230, R231, R232: RESET, from any state: the registers take their values, every cell, every alias and the parameters stay; a
newly created CORE has the same registers, the launch image and no aliases. Rests on the spec's own decisions D23, D24, D25 (log 5)
and on the model's choice of the empty image (log 4). -/
def Obligations.ResetAndCreationValues : Prop :=
  (∀ s : State, ∃ s', perform .reset s = (s', .ok) ∧
    s'.snapshot = { a := 0x00, x := 0x00, y := 0x00, sp := 0xFF, pc := 0x0000, p := 0x20, cyc := 0 } ∧
    (∀ f, s'.flag f = decide (f = .u)) ∧ KeepsBus s s') ∧
  (∀ (cfg : Config) (image : Memory),
    (State.create cfg image).snapshot =
      { a := 0x00, x := 0x00, y := 0x00, sp := 0xFF, pc := 0x0000, p := 0x20, cyc := 0 } ∧
    (State.create cfg image).cfg = cfg ∧ (State.create cfg image).cells = image ∧
    ∀ k, (State.create cfg image).ref k = k) ∧
  State.reset = State.create { busSize := 65536, cycWidth := 64, jsrPushOffset := .two } []

/-- R31, R32, R33: READ returns the canonical cell's byte and changes nothing; WRITE changes exactly that cell, visible through every
alias; an address at or above N is RANGE_ERROR with nothing changed. The CPU's accesses are the same READ and WRITE, and BUS_ERROR
with the address where those fail. -/
def Obligations.ReadAndWriteOneCell : Prop :=
  ∀ (s : State) (v : Byte),
    (∀ a, a < s.cfg.busSize → perform (.read a) s = (s, .okBytes [s.cells.cell (s.ref a)]) ∧
      ∃ s', perform (.write a v) s = (s', .ok) ∧ StoresByte a v s s' ∧ s'.snapshot = s.snapshot) ∧
    (∀ a, s.cfg.busSize ≤ a → perform (.read a) s = (s, .rangeError) ∧ perform (.write a v) s = (s, .rangeError)) ∧
    (∀ w : Word, w.toNat < s.cfg.busSize → memRead w s = .ok (s.cells.cell (s.ref w.toNat)) ∧
      ∃ s', memWrite w v s = .ok s' ∧ StoresByte w.toNat v s s' ∧ s'.snapshot = s.snapshot) ∧
    (∀ w : Word, s.cfg.busSize ≤ w.toNat → memRead w s = .error (.busError w) ∧ memWrite w v s = .error (.busError w))

/-- R34, R35: CLEAR_RANGE zeroes the cells the addresses of the range name, through the alias table, and no other; CLEAR does so for
the whole BUS; a bad range is RANGE_ERROR with nothing changed. Rests on the spec's own decision D21. -/
def Obligations.ClearZeroesTheNamedCells : Prop :=
  ∀ (s : State) (first last : Nat),
    (¬ (first ≤ last ∧ last < s.cfg.busSize) → perform (.clearRange first last) s = (s, .rangeError)) ∧
    (first ≤ last ∧ last < s.cfg.busSize →
      ∃ s', perform (.clearRange first last) s = (s', .ok) ∧ s'.snapshot = s.snapshot ∧ s'.cfg = s.cfg ∧
        s'.refs = s.refs ∧
        (∀ b, first ≤ b → b ≤ last → s'.cells.cell (s.ref b) = 0x00) ∧
        (∀ c, (∀ b, first ≤ b → b ≤ last → s.ref b ≠ c) → s'.cells.cell c = s.cells.cell c)) ∧
    (∃ s', perform .clear s = (s', .ok) ∧ s'.snapshot = s.snapshot ∧ s'.cfg = s.cfg ∧ s'.refs = s.refs ∧
      (∀ b, b < s.cfg.busSize → s'.cells.cell (s.ref b) = 0x00) ∧
      (∀ c, (∀ b, b < s.cfg.busSize → s.ref b ≠ c) → s'.cells.cell c = s.cells.cell c))

/-- R36: MIRROR copies the references of the source range to the destination range, in ascending order, so that where the ranges
overlap a later entry copies what an earlier one received; no cell changes; if the ranges are disjoint every destination address reads
as its source address does; a bad range is RANGE_ERROR with nothing changed. Rests on the spec's own decision D20. -/
def Obligations.MirrorAliasesTheDestination : Prop :=
  ∀ (s : State) (ss se ds de : Nat),
    (¬ (ss ≤ se ∧ ds ≤ de ∧ se - ss = de - ds ∧ se < s.cfg.busSize ∧ de < s.cfg.busSize) →
      perform (.mirror ss se ds de) s = (s, .rangeError)) ∧
    (ss ≤ se ∧ ds ≤ de ∧ se - ss = de - ds ∧ se < s.cfg.busSize ∧ de < s.cfg.busSize →
      ∃ s', perform (.mirror ss se ds de) s = (s', .ok) ∧ s'.snapshot = s.snapshot ∧ s'.cfg = s.cfg ∧
        s'.cells = s.cells ∧
        (∀ b, b < ds ∨ de < b → s'.ref b = s.ref b) ∧
        (∀ k, k ≤ se - ss →
          s'.ref (ds + k) = if ds ≤ ss + k ∧ ss + k < ds + k then s'.ref (ss + k) else s.ref (ss + k)) ∧
        (se < ds ∨ de < ss → ∀ k, k ≤ se - ss →
          s'.ref (ds + k) = s'.ref (ss + k) ∧ s'.busRead (ds + k) = s.busRead (ss + k)))

/-- R37: CLEAR_MIRROR makes every address of the range name its own cell again, whose content is what that cell held; other addresses
keep their references, no cell changes; a bad range is RANGE_ERROR with nothing changed. Rests on the spec's own decision D22. -/
def Obligations.ClearMirrorRestoresSelfReference : Prop :=
  ∀ (s : State) (first last : Nat),
    (¬ (first ≤ last ∧ last < s.cfg.busSize) → perform (.clearMirror first last) s = (s, .rangeError)) ∧
    (first ≤ last ∧ last < s.cfg.busSize →
      ∃ s', perform (.clearMirror first last) s = (s', .ok) ∧ s'.snapshot = s.snapshot ∧ s'.cfg = s.cfg ∧
        s'.cells = s.cells ∧
        (∀ b, first ≤ b → b ≤ last → s'.ref b = b ∧ s'.busRead b = some (s.cells.cell b)) ∧
        (∀ b, b < first ∨ last < b → s'.ref b = s.ref b))

/-- R224: SNAPSHOT reports the seven registers, a multi-byte read is one READ per byte at ascending addresses and fails if one of
them does; neither changes anything. That it is a sequence of READs which stops with RANGE_ERROR is the spec's own decision D34. Two
points are the model's choice, log 15, and no rule of the spec: a count of 0 is answered by the empty list, and RANGE_ERROR comes
without the bytes read before it. -/
def Obligations.InspectionReportsAndChangesNothing : Prop :=
  ∀ (s : State) (a n : Nat),
    perform .snapshot s = (s, .okSnapshot
      { a := s.a, x := s.x, y := s.y, sp := s.sp, pc := s.pc, p := s.p, cyc := s.cyc }) ∧
    (a + n ≤ s.cfg.busSize → perform (.readBytes a n) s = (s, .okBytes ((List.range n).map fun k => s.peek (a + k)))) ∧
    (s.cfg.busSize < a + n → 0 < n → perform (.readBytes a n) s = (s, .rangeError))

/-- R33, R210, R211, R212, R226: an operation whose outcome is a failure leaves the whole state as it was; no operation answers that
it has no meaning. Rests on the spec's own decision D18. -/
def Obligations.FailuresChangeNothing : Prop :=
  ∀ (r : Request) (s : State),
    (perform r s).2 ≠ .refused ∧
    (((perform r s).2 = .rangeError ∨ (∃ op, (perform r s).2 = .unknownOpcode op) ∨ ∃ a, (perform r s).2 = .busError a) →
      (perform r s).1 = s)

/-- R31, R32, 20_memory.md section 2: the cells are equal data whenever they hold the same bytes: two canonical lists of cells with
the same byte at every index are the same list. Rests on the model's choice, log 4. -/
def Obligations.EqualMemoriesAreEqualData : Prop :=
  ∀ m k : Memory, m.wf → k.wf → (∀ i, m.cell i = k.cell i) → m = k
end

