-- ==== Sys2Proof/Laws/State.lean ====
section
/-! SUPPORT. What each update of the state does to each field: one lemma per field per update, so that no later proof unfolds
a record update. -/

namespace Sys2Proof.Machine

variable (s : State)

/-! ### `setReg` -/

@[simp] theorem State.setReg_cfg (r : Reg) (v : Byte) : (s.setReg r v).cfg = s.cfg := by cases r <;> rfl
@[simp] theorem State.setReg_pc (r : Reg) (v : Byte) : (s.setReg r v).pc = s.pc := by cases r <;> rfl
@[simp] theorem State.setReg_p (r : Reg) (v : Byte) : (s.setReg r v).p = s.p := by cases r <;> rfl
@[simp] theorem State.setReg_cyc (r : Reg) (v : Byte) : (s.setReg r v).cyc = s.cyc := by cases r <;> rfl
@[simp] theorem State.setReg_cells (r : Reg) (v : Byte) : (s.setReg r v).cells = s.cells := by cases r <;> rfl
@[simp] theorem State.setReg_refs (r : Reg) (v : Byte) : (s.setReg r v).refs = s.refs := by cases r <;> rfl
@[simp] theorem State.setReg_a_a (v : Byte) : (s.setReg .a v).a = v := rfl
@[simp] theorem State.setReg_a_x (v : Byte) : (s.setReg .a v).x = s.x := rfl
@[simp] theorem State.setReg_a_y (v : Byte) : (s.setReg .a v).y = s.y := rfl
@[simp] theorem State.setReg_a_sp (v : Byte) : (s.setReg .a v).sp = s.sp := rfl
@[simp] theorem State.setReg_x_a (v : Byte) : (s.setReg .x v).a = s.a := rfl
@[simp] theorem State.setReg_x_x (v : Byte) : (s.setReg .x v).x = v := rfl
@[simp] theorem State.setReg_x_y (v : Byte) : (s.setReg .x v).y = s.y := rfl
@[simp] theorem State.setReg_x_sp (v : Byte) : (s.setReg .x v).sp = s.sp := rfl
@[simp] theorem State.setReg_y_a (v : Byte) : (s.setReg .y v).a = s.a := rfl
@[simp] theorem State.setReg_y_x (v : Byte) : (s.setReg .y v).x = s.x := rfl
@[simp] theorem State.setReg_y_y (v : Byte) : (s.setReg .y v).y = v := rfl
@[simp] theorem State.setReg_y_sp (v : Byte) : (s.setReg .y v).sp = s.sp := rfl
@[simp] theorem State.setReg_sp_a (v : Byte) : (s.setReg .sp v).a = s.a := rfl
@[simp] theorem State.setReg_sp_x (v : Byte) : (s.setReg .sp v).x = s.x := rfl
@[simp] theorem State.setReg_sp_y (v : Byte) : (s.setReg .sp v).y = s.y := rfl
@[simp] theorem State.setReg_sp_sp (v : Byte) : (s.setReg .sp v).sp = v := rfl

@[simp] theorem State.reg_a : s.reg .a = s.a := rfl
@[simp] theorem State.reg_x : s.reg .x = s.x := rfl
@[simp] theorem State.reg_y : s.reg .y = s.y := rfl
@[simp] theorem State.reg_sp : s.reg .sp = s.sp := rfl
theorem State.setReg_reg (r q : Reg) (v : Byte) : (s.setReg r v).reg q = if q = r then v else s.reg q := by
  cases r <;> cases q <;> rfl

/-! ### `mapP` -/

@[simp] theorem State.mapP_cfg (g : Byte → Byte) : (s.mapP g).cfg = s.cfg := rfl
@[simp] theorem State.mapP_a (g : Byte → Byte) : (s.mapP g).a = s.a := rfl
@[simp] theorem State.mapP_x (g : Byte → Byte) : (s.mapP g).x = s.x := rfl
@[simp] theorem State.mapP_y (g : Byte → Byte) : (s.mapP g).y = s.y := rfl
@[simp] theorem State.mapP_sp (g : Byte → Byte) : (s.mapP g).sp = s.sp := rfl
@[simp] theorem State.mapP_pc (g : Byte → Byte) : (s.mapP g).pc = s.pc := rfl
@[simp] theorem State.mapP_p (g : Byte → Byte) : (s.mapP g).p = g s.p := rfl
@[simp] theorem State.mapP_cyc (g : Byte → Byte) : (s.mapP g).cyc = s.cyc := rfl
@[simp] theorem State.mapP_cells (g : Byte → Byte) : (s.mapP g).cells = s.cells := rfl
@[simp] theorem State.mapP_refs (g : Byte → Byte) : (s.mapP g).refs = s.refs := rfl

@[simp] theorem State.mapP_reg (g : Byte → Byte) (r : Reg) : (s.mapP g).reg r = s.reg r := by cases r <;> rfl

/-! ### `setZN` -/

@[simp] theorem State.setZN_cfg (v : Byte) : (s.setZN v).cfg = s.cfg := rfl
@[simp] theorem State.setZN_a (v : Byte) : (s.setZN v).a = s.a := rfl
@[simp] theorem State.setZN_x (v : Byte) : (s.setZN v).x = s.x := rfl
@[simp] theorem State.setZN_y (v : Byte) : (s.setZN v).y = s.y := rfl
@[simp] theorem State.setZN_sp (v : Byte) : (s.setZN v).sp = s.sp := rfl
@[simp] theorem State.setZN_pc (v : Byte) : (s.setZN v).pc = s.pc := rfl
@[simp] theorem State.setZN_p (v : Byte) : (s.setZN v).p = withZN v s.p := rfl
@[simp] theorem State.setZN_cyc (v : Byte) : (s.setZN v).cyc = s.cyc := rfl
@[simp] theorem State.setZN_cells (v : Byte) : (s.setZN v).cells = s.cells := rfl
@[simp] theorem State.setZN_refs (v : Byte) : (s.setZN v).refs = s.refs := rfl

@[simp] theorem State.setZN_reg (v : Byte) (r : Reg) : (s.setZN v).reg r = s.reg r := by cases r <;> rfl

/-! ### `goTo` -/

@[simp] theorem State.goTo_cfg (w : Word) (n : Nat) : (s.goTo w n).cfg = s.cfg := rfl
@[simp] theorem State.goTo_a (w : Word) (n : Nat) : (s.goTo w n).a = s.a := rfl
@[simp] theorem State.goTo_x (w : Word) (n : Nat) : (s.goTo w n).x = s.x := rfl
@[simp] theorem State.goTo_y (w : Word) (n : Nat) : (s.goTo w n).y = s.y := rfl
@[simp] theorem State.goTo_sp (w : Word) (n : Nat) : (s.goTo w n).sp = s.sp := rfl
@[simp] theorem State.goTo_pc (w : Word) (n : Nat) : (s.goTo w n).pc = w := rfl
@[simp] theorem State.goTo_p (w : Word) (n : Nat) : (s.goTo w n).p = s.p := rfl
@[simp] theorem State.goTo_cyc (w : Word) (n : Nat) : (s.goTo w n).cyc = (s.cyc + n) % 2 ^ s.cfg.cycWidth := rfl
@[simp] theorem State.goTo_cells (w : Word) (n : Nat) : (s.goTo w n).cells = s.cells := rfl
@[simp] theorem State.goTo_refs (w : Word) (n : Nat) : (s.goTo w n).refs = s.refs := rfl

@[simp] theorem State.goTo_reg (w : Word) (n : Nat) (r : Reg) : (s.goTo w n).reg r = s.reg r := by cases r <;> rfl

/-! ### `finish` -/

@[simp] theorem State.finish_cfg (t : Timing) (c : Bool) : (finish t c s).cfg = s.cfg := rfl
@[simp] theorem State.finish_a (t : Timing) (c : Bool) : (finish t c s).a = s.a := rfl
@[simp] theorem State.finish_x (t : Timing) (c : Bool) : (finish t c s).x = s.x := rfl
@[simp] theorem State.finish_y (t : Timing) (c : Bool) : (finish t c s).y = s.y := rfl
@[simp] theorem State.finish_sp (t : Timing) (c : Bool) : (finish t c s).sp = s.sp := rfl
@[simp] theorem State.finish_pc (t : Timing) (c : Bool) : (finish t c s).pc = s.pc + BitVec.ofNat 16 t.length := rfl
@[simp] theorem State.finish_p (t : Timing) (c : Bool) : (finish t c s).p = s.p := rfl
@[simp] theorem State.finish_cyc (t : Timing) (c : Bool) : (finish t c s).cyc = (s.cyc + (t.base + if t.crossExtra && c then 1 else 0)) % 2 ^ s.cfg.cycWidth := rfl
@[simp] theorem State.finish_cells (t : Timing) (c : Bool) : (finish t c s).cells = s.cells := rfl
@[simp] theorem State.finish_refs (t : Timing) (c : Bool) : (finish t c s).refs = s.refs := rfl

@[simp] theorem State.finish_reg (t : Timing) (c : Bool) (r : Reg) : (finish t c s).reg r = s.reg r := by cases r <;> rfl

/-! ### `poke` -/

@[simp] theorem State.poke_cfg (addr : Nat) (v : Byte) : (s.poke addr v).cfg = s.cfg := rfl
@[simp] theorem State.poke_a (addr : Nat) (v : Byte) : (s.poke addr v).a = s.a := rfl
@[simp] theorem State.poke_x (addr : Nat) (v : Byte) : (s.poke addr v).x = s.x := rfl
@[simp] theorem State.poke_y (addr : Nat) (v : Byte) : (s.poke addr v).y = s.y := rfl
@[simp] theorem State.poke_sp (addr : Nat) (v : Byte) : (s.poke addr v).sp = s.sp := rfl
@[simp] theorem State.poke_pc (addr : Nat) (v : Byte) : (s.poke addr v).pc = s.pc := rfl
@[simp] theorem State.poke_p (addr : Nat) (v : Byte) : (s.poke addr v).p = s.p := rfl
@[simp] theorem State.poke_cyc (addr : Nat) (v : Byte) : (s.poke addr v).cyc = s.cyc := rfl
@[simp] theorem State.poke_cells (addr : Nat) (v : Byte) : (s.poke addr v).cells = s.cells.setCell (s.ref addr) v := rfl
@[simp] theorem State.poke_refs (addr : Nat) (v : Byte) : (s.poke addr v).refs = s.refs := rfl

@[simp] theorem State.poke_reg (addr : Nat) (v : Byte) (r : Reg) : (s.poke addr v).reg r = s.reg r := by cases r <;> rfl

/-! ### `setRef` -/

@[simp] theorem State.setRef_cfg (addr i : Nat) : (s.setRef addr i).cfg = s.cfg := rfl
@[simp] theorem State.setRef_a (addr i : Nat) : (s.setRef addr i).a = s.a := rfl
@[simp] theorem State.setRef_x (addr i : Nat) : (s.setRef addr i).x = s.x := rfl
@[simp] theorem State.setRef_y (addr i : Nat) : (s.setRef addr i).y = s.y := rfl
@[simp] theorem State.setRef_sp (addr i : Nat) : (s.setRef addr i).sp = s.sp := rfl
@[simp] theorem State.setRef_pc (addr i : Nat) : (s.setRef addr i).pc = s.pc := rfl
@[simp] theorem State.setRef_p (addr i : Nat) : (s.setRef addr i).p = s.p := rfl
@[simp] theorem State.setRef_cyc (addr i : Nat) : (s.setRef addr i).cyc = s.cyc := rfl
@[simp] theorem State.setRef_cells (addr i : Nat) : (s.setRef addr i).cells = s.cells := rfl
@[simp] theorem State.setRef_refs (addr i : Nat) : (s.setRef addr i).refs = s.refs.setRef addr i := rfl

@[simp] theorem State.setRef_reg (addr i : Nat) (r : Reg) : (s.setRef addr i).reg r = s.reg r := by cases r <;> rfl

/-! ### `resetRegs` -/

@[simp] theorem State.resetRegs_cfg : (s.resetRegs).cfg = s.cfg := rfl
@[simp] theorem State.resetRegs_a : (s.resetRegs).a = 0x00 := rfl
@[simp] theorem State.resetRegs_x : (s.resetRegs).x = 0x00 := rfl
@[simp] theorem State.resetRegs_y : (s.resetRegs).y = 0x00 := rfl
@[simp] theorem State.resetRegs_sp : (s.resetRegs).sp = 0xFF := rfl
@[simp] theorem State.resetRegs_pc : (s.resetRegs).pc = 0x0000 := rfl
@[simp] theorem State.resetRegs_p : (s.resetRegs).p = 0x20 := rfl
@[simp] theorem State.resetRegs_cyc : (s.resetRegs).cyc = 0 := rfl
@[simp] theorem State.resetRegs_cells : (s.resetRegs).cells = s.cells := rfl
@[simp] theorem State.resetRegs_refs : (s.resetRegs).refs = s.refs := rfl

/-! ### What an address names and reads depends on the cells and the alias table alone -/

@[simp] theorem State.setReg_ref (r : Reg) (v : Byte) (k : Nat) : (s.setReg r v).ref k = s.ref k := by cases r <;> rfl
@[simp] theorem State.setReg_peek (r : Reg) (v : Byte) (k : Nat) : (s.setReg r v).peek k = s.peek k := by cases r <;> rfl
@[simp] theorem State.setReg_memRead (r : Reg) (v : Byte) (k : Word) : memRead k (s.setReg r v) = memRead k s := by cases r <;> rfl
@[simp] theorem State.mapP_ref (g : Byte → Byte) (k : Nat) : (s.mapP g).ref k = s.ref k := rfl
@[simp] theorem State.mapP_peek (g : Byte → Byte) (k : Nat) : (s.mapP g).peek k = s.peek k := rfl
@[simp] theorem State.mapP_memRead (g : Byte → Byte) (k : Word) : memRead k (s.mapP g) = memRead k s := rfl
@[simp] theorem State.setZN_ref (v : Byte) (k : Nat) : (s.setZN v).ref k = s.ref k := rfl
@[simp] theorem State.setZN_peek (v : Byte) (k : Nat) : (s.setZN v).peek k = s.peek k := rfl
@[simp] theorem State.setZN_memRead (v : Byte) (k : Word) : memRead k (s.setZN v) = memRead k s := rfl
@[simp] theorem State.goTo_ref (w : Word) (n : Nat) (k : Nat) : (s.goTo w n).ref k = s.ref k := rfl
@[simp] theorem State.goTo_peek (w : Word) (n : Nat) (k : Nat) : (s.goTo w n).peek k = s.peek k := rfl
@[simp] theorem State.goTo_memRead (w : Word) (n : Nat) (k : Word) : memRead k (s.goTo w n) = memRead k s := rfl
@[simp] theorem State.finish_ref (t : Timing) (c : Bool) (k : Nat) : (finish t c s).ref k = s.ref k := rfl
@[simp] theorem State.finish_peek (t : Timing) (c : Bool) (k : Nat) : (finish t c s).peek k = s.peek k := rfl
@[simp] theorem State.finish_memRead (t : Timing) (c : Bool) (k : Word) : memRead k (finish t c s) = memRead k s := rfl
@[simp] theorem State.resetRegs_ref (k : Nat) : (s.resetRegs).ref k = s.ref k := rfl
@[simp] theorem State.resetRegs_peek (k : Nat) : (s.resetRegs).peek k = s.peek k := rfl
@[simp] theorem State.poke_ref (addr : Nat) (v : Byte) (k : Nat) : (s.poke addr v).ref k = s.ref k := rfl

@[simp] theorem State.flag_def (f : Flag) : s.flag f = flagOf s.p f := rfl

end Sys2Proof.Machine
end

