-- ==== Sys2Proof/Laws/Flags.lean ====
section
/-! SUPPORT. The laws of the status byte's fields and of the shared flag computations (spec/10_state.md R13 to R15). -/

namespace Sys2Proof.Machine

theorem Flag.bit_lt (f : Flag) : f.bit < 8 := by cases f <;> decide

theorem Flag.bit_inj {f g : Flag} (h : f.bit = g.bit) : f = g := by
  cases f <;> cases g <;> first | rfl | cases h

theorem Flag.getLsbD_mask (f g : Flag) : (1#8 <<< f.bit).getLsbD g.bit = decide (g = f) := by
  cases f <;> cases g <;> rfl

/-- A flag written is the flag read; every other flag is as before. -/
@[simp] theorem flagOf_withFlag (f g : Flag) (v : Bool) (p : Byte) :
    flagOf (withFlag f v p) g = if g = f then v else flagOf p g := by
  unfold flagOf withFlag
  cases v <;> simp only [Bool.false_eq_true, if_true, if_false, BitVec.getLsbD_or, BitVec.getLsbD_and, BitVec.getLsbD_not,
    Flag.getLsbD_mask, g.bit_lt] <;> by_cases h : g = f <;> simp [h]

/-- Two status bytes with the same flags are equal. -/
theorem status_ext {p q : Byte} (h : ∀ f, flagOf p f = flagOf q f) : p = q := by
  refine BitVec.eq_of_getLsbD_eq fun k hk => ?_
  have hk' : k = 0 ∨ k = 1 ∨ k = 2 ∨ k = 3 ∨ k = 4 ∨ k = 5 ∨ k = 6 ∨ k = 7 := by omega
  rcases hk' with rfl | rfl | rfl | rfl | rfl | rfl | rfl | rfl
  · exact h .c
  · exact h .z
  · exact h .i
  · exact h .d
  · exact h .b
  · exact h .u
  · exact h .v
  · exact h .n

/-- SetZN: Z and N follow the value, every other flag is as before (R97). -/
@[simp] theorem flagOf_withZN (v p : Byte) (g : Flag) :
    flagOf (withZN v p) g = if g = .n then v.getLsbD 7 else if g = .z then v == 0 else flagOf p g := by
  simp [withZN]

/-- WriteP: every flag as given, but U, which is 1 (R99). -/
@[simp] theorem flagOf_statusByte (v : Byte) (g : Flag) :
    flagOf (statusByte v) g = if g = .u then true else flagOf v g := by
  have : ∀ g : Flag, (0x20#8).getLsbD g.bit = decide (g = .u) := by intro g; cases g <;> rfl
  simp only [flagOf, statusByte, BitVec.getLsbD_or]
  erw [this g]
  by_cases h : g = .u <;> simp [h]

@[simp] theorem flagOf_withArithFlags (c v : Bool) (r p : Byte) (g : Flag) :
    flagOf (withArithFlags c v r p) g =
      if g = .n then r.getLsbD 7 else if g = .z then r == 0 else if g = .v then v else if g = .c then c else flagOf p g := by
  simp [withArithFlags]

@[simp] theorem flagOf_withCompareFlags (reg m p : Byte) (g : Flag) :
    flagOf (withCompareFlags reg m p) g =
      if g = .n then (reg - m).getLsbD 7 else if g = .z then reg - m == 0
      else if g = .c then decide (m.toNat ≤ reg.toNat) else flagOf p g := by
  simp [withCompareFlags]

@[simp] theorem flagOf_withBitFlags (a m p : Byte) (g : Flag) :
    flagOf (withBitFlags a m p) g =
      if g = .v then m.getLsbD 6 else if g = .n then m.getLsbD 7 else if g = .z then a &&& m == 0 else flagOf p g := by
  simp [withBitFlags]

end Sys2Proof.Machine
end

