-- ==== Sys2Proof/Laws/Memory.lean ====
section
/-! SUPPORT. The laws of the canonical lists, of the cells, of the alias table, and of READ and WRITE through it. -/

namespace Sys2Proof.Machine

section Lists

variable {α : Type} {dflt : Nat → α}

theorem Sparse.get_erase_self (l : List (Nat × α)) (k : Nat) : Sparse.get dflt (Sparse.erase k l) k = dflt k := by
  induction l with
  | nil => rfl
  | cons e l ih =>
    obtain ⟨j, v⟩ := e
    by_cases h : k = j
    · simpa [Sparse.erase, h] using h ▸ ih
    · simpa [Sparse.erase, Sparse.get, h] using ih

theorem Sparse.get_erase_ne (l : List (Nat × α)) {k k' : Nat} (hk : k' ≠ k) :
    Sparse.get dflt (Sparse.erase k l) k' = Sparse.get dflt l k' := by
  induction l with
  | nil => rfl
  | cons e l ih =>
    obtain ⟨j, v⟩ := e
    by_cases h : k = j
    · subst h
      simpa [Sparse.erase, Sparse.get, hk] using ih
    · by_cases h' : k' = j <;> simp [Sparse.erase, Sparse.get, h, h', ih]

theorem Sparse.get_insert_ne (l : List (Nat × α)) (v : α) {k k' : Nat} (hk : k' ≠ k) :
    Sparse.get dflt (Sparse.insert k v l) k' = Sparse.get dflt l k' := by
  induction l with
  | nil => simp [Sparse.insert, Sparse.get, hk]
  | cons e l ih =>
    obtain ⟨j, w⟩ := e
    by_cases h : k < j
    · simp [Sparse.insert, Sparse.get, h, hk]
    · by_cases h' : k' = j <;> simp [Sparse.insert, Sparse.get, h, h', ih]

theorem Sparse.get_insert_erase (l : List (Nat × α)) (v : α) (k : Nat) :
    Sparse.get dflt (Sparse.insert k v (Sparse.erase k l)) k = v := by
  induction l with
  | nil => simp [Sparse.erase, Sparse.insert, Sparse.get]
  | cons e l ih =>
    obtain ⟨j, w⟩ := e
    by_cases h : k = j
    · simpa [Sparse.erase, h] using h ▸ ih
    · by_cases h' : k < j
      · simp [Sparse.erase, Sparse.insert, Sparse.get, h, h']
      · simpa [Sparse.erase, Sparse.insert, Sparse.get, h, h'] using ih

variable [DecidableEq α]

/-- A value set at an index is the value read there, in any list. -/
theorem Sparse.get_set_self (l : List (Nat × α)) (k : Nat) (v : α) :
    Sparse.get dflt (Sparse.set dflt l k v) k = v := by
  by_cases h : v = dflt k
  · simp [Sparse.set, h, Sparse.get_erase_self]
  · simp [Sparse.set, h, Sparse.get_insert_erase]

/-- Setting an index leaves every other index alone, in any list. -/
theorem Sparse.get_set_ne (l : List (Nat × α)) (v : α) {k k' : Nat} (hk : k' ≠ k) :
    Sparse.get dflt (Sparse.set dflt l k v) k' = Sparse.get dflt l k' := by
  by_cases h : v = dflt k
  · simp [Sparse.set, h, Sparse.get_erase_ne l hk]
  · simp [Sparse.set, h, Sparse.get_insert_ne _ v hk, Sparse.get_erase_ne l hk]

theorem Sparse.get_set (l : List (Nat × α)) (v : α) (k k' : Nat) :
    Sparse.get dflt (Sparse.set dflt l k v) k' = if k' = k then v else Sparse.get dflt l k' := by
  split
  · next h => rw [h, Sparse.get_set_self]
  · next h => exact Sparse.get_set_ne l v h

omit [DecidableEq α] in
theorem Sparse.mem_erase {l : List (Nat × α)} {k : Nat} {e : Nat × α} (h : e ∈ Sparse.erase k l) : e ∈ l ∧ e.1 ≠ k := by
  induction l with
  | nil => simp [Sparse.erase] at h
  | cons f l ih =>
    obtain ⟨j, v⟩ := f
    by_cases hj : k = j
    · simp only [Sparse.erase, hj, if_true] at h
      exact (ih (hj ▸ h)).imp_left (List.mem_cons_of_mem _)
    · simp only [Sparse.erase, hj, if_false, List.mem_cons] at h
      rcases h with rfl | h
      · exact ⟨by simp, fun h' => hj h'.symm⟩
      · exact (ih h).imp_left (List.mem_cons_of_mem _)

omit [DecidableEq α] in
theorem Sparse.mem_insert {l : List (Nat × α)} {k : Nat} {v : α} {e : Nat × α} (h : e ∈ Sparse.insert k v l) :
    e = (k, v) ∨ e ∈ l := by
  induction l with
  | nil => simpa [Sparse.insert] using h
  | cons f l ih =>
    obtain ⟨j, w⟩ := f
    by_cases hj : k < j
    · simpa [Sparse.insert, hj] using h
    · simp only [Sparse.insert, hj, if_false, List.mem_cons] at h
      rcases h with rfl | h
      · exact .inr (by simp)
      · exact (ih h).imp_right (List.mem_cons_of_mem _)

theorem Sparse.mem_set {l : List (Nat × α)} {k : Nat} {v : α} {e : Nat × α} (h : e ∈ Sparse.set dflt l k v) :
    e = (k, v) ∨ e ∈ l := by
  simp only [Sparse.set] at h
  split at h
  · exact .inr (Sparse.mem_erase h).1
  · exact (Sparse.mem_insert h).imp_right fun h => (Sparse.mem_erase h).1

omit [DecidableEq α] in
theorem Sparse.erase_rising {l : List (Nat × α)} (k : Nat) (h : l.Pairwise fun e f => e.1 < f.1) :
    (Sparse.erase k l).Pairwise fun e f => e.1 < f.1 := by
  induction h with
  | nil => simp [Sparse.erase]
  | @cons e l hlt _ ih =>
    obtain ⟨j, v⟩ := e
    by_cases hj : k = j
    · simpa [Sparse.erase, hj] using hj ▸ ih
    · simp only [Sparse.erase, hj, if_false]
      exact .cons (fun f hf => hlt f (Sparse.mem_erase hf).1) ih

omit [DecidableEq α] in
theorem Sparse.insert_rising {l : List (Nat × α)} {k : Nat} (v : α) (h : l.Pairwise fun e f => e.1 < f.1)
    (hk : ∀ e ∈ l, e.1 ≠ k) : (Sparse.insert k v l).Pairwise fun e f => e.1 < f.1 := by
  induction h with
  | nil => simp [Sparse.insert]
  | @cons e l hlt hl ih =>
    obtain ⟨j, w⟩ := e
    have hkj : j ≠ k := hk (j, w) (by simp)
    by_cases hj : k < j
    · simp only [Sparse.insert, hj, if_true]
      refine .cons (fun f hf => ?_) (.cons hlt hl)
      rcases List.mem_cons.1 hf with rfl | hf
      · exact hj
      · exact hj.trans (hlt f hf)
    · simp only [Sparse.insert, hj, if_false]
      refine .cons (fun f hf => ?_) (ih fun f hf => hk f (List.mem_cons_of_mem _ hf))
      rcases Sparse.mem_insert hf with rfl | hf
      · exact lt_of_le_of_ne (Nat.le_of_not_lt hj) hkj
      · exact hlt f hf

/-- Setting an index keeps the canonical form. -/
theorem Sparse.set_wf {l : List (Nat × α)} (k : Nat) (v : α) (h : Sparse.wf dflt l) :
    Sparse.wf dflt (Sparse.set dflt l k v) := by
  simp only [Sparse.set]
  split
  · exact ⟨Sparse.erase_rising k h.1, fun e he => h.2 e (Sparse.mem_erase he).1⟩
  · next hv =>
    refine ⟨Sparse.insert_rising v (Sparse.erase_rising k h.1) fun e he => (Sparse.mem_erase he).2, fun e he => ?_⟩
    rcases Sparse.mem_insert he with rfl | he
    · exact hv
    · exact h.2 e (Sparse.mem_erase he).1

end Lists

/-! ### Cells and aliases -/

@[simp] theorem Memory.cell_setCell (m : Memory) (i k : Nat) (v : Byte) :
    (m.setCell i v).cell k = if k = i then v else m.cell k := Sparse.get_set m v i k

@[simp] theorem AliasTable.ref_setRef (t : AliasTable) (a i k : Nat) :
    (t.setRef a i).ref k = if k = a then i else t.ref k := Sparse.get_set t i a k

/-- Every write of a cell keeps the canonical form. -/
theorem Memory.setCell_wf {m : Memory} (i : Nat) (v : Byte) (h : m.wf) : (m.setCell i v).wf := Sparse.set_wf i v h

/-- Every write of an alias keeps the canonical form. -/
theorem AliasTable.setRef_wf {t : AliasTable} (a i : Nat) (h : t.wf) : (t.setRef a i).wf := Sparse.set_wf a i h

/-- The cell an address names exists, where every listed alias names one that does. -/
theorem AliasTable.ref_lt {t : AliasTable} {n a : Nat} (h : ∀ e ∈ t, e.2 < n) (ha : a < n) : t.ref a < n := by
  unfold AliasTable.ref
  induction t with
  | nil => exact ha
  | cons e t ih =>
    obtain ⟨j, i⟩ := e
    by_cases hj : a = j
    · simpa [Sparse.get, hj] using h (j, i) (by simp)
    · simpa [Sparse.get, hj] using ih fun f hf => h f (List.mem_cons_of_mem _ hf)

@[simp] theorem State.ref_setRef (s : State) (a i k : Nat) : (s.setRef a i).ref k = if k = a then i else s.ref k :=
  AliasTable.ref_setRef s.refs a i k

/-- A byte read after a write through any alias of the written address is the byte written; all others are as before (R32). -/
@[simp] theorem State.peek_poke (s : State) (a k : Nat) (v : Byte) :
    (s.poke a v).peek k = if s.ref k = s.ref a then v else s.peek k := Memory.cell_setCell _ _ _ _

/-! ### READ and WRITE -/

theorem State.busRead_some {s : State} {a : Nat} (h : a < s.cfg.busSize) : s.busRead a = some (s.peek a) := by
  simp [State.busRead, h]

theorem State.busRead_none {s : State} {a : Nat} (h : ¬ a < s.cfg.busSize) : s.busRead a = none := by
  simp [State.busRead, h]

/-- Everything a CPU read can do. -/
theorem memRead_cases (addr : Word) (s : State) :
    (addr.toNat < s.cfg.busSize ∧ memRead addr s = .ok (s.peek addr.toNat)) ∨
    (¬ addr.toNat < s.cfg.busSize ∧ memRead addr s = .error (.busError addr)) := by
  by_cases h : addr.toNat < s.cfg.busSize
  · exact .inl ⟨h, by simp [memRead, State.busRead, h]⟩
  · exact .inr ⟨h, by simp [memRead, State.busRead, h]⟩

theorem memRead_ok {addr : Word} {s : State} (h : addr.toNat < s.cfg.busSize) :
    memRead addr s = .ok (s.peek addr.toNat) := by simp [memRead, State.busRead, h]

theorem memRead_eq_ok_iff {addr : Word} {s : State} {v : Byte} :
    memRead addr s = .ok v ↔ addr.toNat < s.cfg.busSize ∧ v = s.peek addr.toNat := by
  rcases memRead_cases addr s with ⟨h, e⟩ | ⟨h, e⟩ <;> simp [e, h, eq_comm]

theorem memRead_eq_error_iff {addr : Word} {s : State} {f : Fault} :
    memRead addr s = .error f ↔ ¬ addr.toNat < s.cfg.busSize ∧ f = .busError addr := by
  rcases memRead_cases addr s with ⟨h, e⟩ | ⟨h, e⟩ <;> simp [e, h, eq_comm]

/-- Everything a CPU write can do. -/
theorem memWrite_cases (addr : Word) (v : Byte) (s : State) :
    (addr.toNat < s.cfg.busSize ∧ memWrite addr v s = .ok (s.poke addr.toNat v)) ∨
    (¬ addr.toNat < s.cfg.busSize ∧ memWrite addr v s = .error (.busError addr)) := by
  by_cases h : addr.toNat < s.cfg.busSize
  · exact .inl ⟨h, by simp [memWrite, State.busWrite, h]⟩
  · exact .inr ⟨h, by simp [memWrite, State.busWrite, h]⟩

theorem memWrite_ok {addr : Word} {v : Byte} {s : State} (h : addr.toNat < s.cfg.busSize) :
    memWrite addr v s = .ok (s.poke addr.toNat v) := by simp [memWrite, State.busWrite, h]

theorem memWrite_eq_ok_iff {addr : Word} {v : Byte} {s t : State} :
    memWrite addr v s = .ok t ↔ addr.toNat < s.cfg.busSize ∧ t = s.poke addr.toNat v := by
  rcases memWrite_cases addr v s with ⟨h, e⟩ | ⟨h, e⟩ <;> simp [e, h, eq_comm]

theorem memWrite_eq_error_iff {addr : Word} {v : Byte} {s : State} {f : Fault} :
    memWrite addr v s = .error f ↔ ¬ addr.toNat < s.cfg.busSize ∧ f = .busError addr := by
  rcases memWrite_cases addr v s with ⟨h, e⟩ | ⟨h, e⟩ <;> simp [e, h, eq_comm]

end Sys2Proof.Machine
end

