-- ==== Sys2Proof/Laws/Operands.lean ====
section
/-! SUPPORT. What operand resolution, operand access, push and pop can do, said once each (spec/40_dispatch_addressing.md). -/

namespace Sys2Proof.Machine

@[simp] theorem except_bind_ok {ε α β : Type} (a : α) (f : α → Except ε β) : (Except.ok a >>= f) = f a := rfl
@[simp] theorem except_bind_error {ε α β : Type} (e : ε) (f : α → Except ε β) : (Except.error e >>= f) = .error e := rfl
@[simp] theorem except_pure {ε α : Type} (a : α) : (pure a : Except ε α) = .ok a := rfl

/-- A sequence of two computations completes when both do. -/
theorem bind_eq_ok_iff {ε α β : Type} {x : Except ε α} {f : α → Except ε β} {b : β} :
    (x >>= f) = .ok b ↔ ∃ a, x = .ok a ∧ f a = .ok b := by
  cases x <;> simp

/-- It fails when the first does, or the second after it. -/
theorem bind_eq_error_iff {ε α β : Type} {x : Except ε α} {f : α → Except ε β} {e : ε} :
    (x >>= f) = .error e ↔ x = .error e ∨ ∃ a, x = .ok a ∧ f a = .error e := by
  cases x <;> simp

@[simp] theorem outcome_ok (s : State) : outcome (.ok s) = .next s := rfl
@[simp] theorem outcome_error (f : Fault) : outcome (.error f) = .fault f := rfl

theorem outcome_eq_next_iff {r : Except Fault State} {s : State} : outcome r = .next s ↔ r = .ok s := by
  cases r <;> simp [outcome]

theorem outcome_eq_fault_iff {r : Except Fault State} {f : Fault} : outcome r = .fault f ↔ r = .error f := by
  cases r <;> simp [outcome]

theorem outcome_ne_refused (r : Except Fault State) (q : Refusal) : outcome r ≠ .refused q := by
  cases r <;> simp [outcome]

/-! ### Addresses -/

@[simp] theorem zext_toNat (v : Byte) : (zext v).toNat = v.toNat := by
  have := v.isLt
  simp only [zext, BitVec.toNat_setWidth]
  omega

/-- A stack slot lies in the stack page, at STACK_BASE + SP (R11, R98). -/
@[simp] theorem stackAddr_toNat (sp : Byte) : (stackAddr sp).toNat = 0x0100 + sp.toNat := by
  have := sp.isLt
  simp only [stackAddr, BitVec.toNat_add, zext_toNat, BitVec.reduceToNat]
  omega

@[simp] theorem wordOf_toNat (lo hi : Byte) : (wordOf lo hi).toNat = hi.toNat * 256 + lo.toNat := by
  have := lo.isLt
  have := hi.isLt
  simp only [wordOf, BitVec.toNat_ofNat]
  omega

@[simp] theorem wordOf_lo (lo hi : Byte) : (wordOf lo hi).lo = lo := by
  apply BitVec.eq_of_toNat_eq
  have := lo.isLt
  simp only [Word.lo, BitVec.toNat_ofNat, wordOf_toNat]
  omega

@[simp] theorem wordOf_hi (lo hi : Byte) : (wordOf lo hi).hi = hi := by
  apply BitVec.eq_of_toNat_eq
  have := lo.isLt
  have := hi.isLt
  simp only [Word.hi, BitVec.toNat_ofNat, wordOf_toNat]
  omega

@[simp] theorem wordOf_lo_hi (w : Word) : wordOf w.lo w.hi = w := by
  apply BitVec.eq_of_toNat_eq
  have := w.isLt
  simp only [wordOf_toNat, Word.lo, Word.hi, BitVec.toNat_ofNat]
  omega

/-! ### Resolution fails only by a bus error -/

theorem memRead_error {addr : Word} {s : State} {f : Fault} (h : memRead addr s = .error f) : ∃ a, f = .busError a :=
  ⟨addr, (memRead_eq_error_iff.1 h).2⟩

theorem zeroPagePointer_eq_ok_iff {z : Byte} {s : State} {w : Word} :
    zeroPagePointer z s = .ok w ↔
      z.toNat < s.cfg.busSize ∧ (z + 1).toNat < s.cfg.busSize ∧
        w = wordOf (s.peek z.toNat) (s.peek (z + 1).toNat) := by
  simp only [zeroPagePointer, bind_eq_ok_iff, memRead_eq_ok_iff, except_pure, Except.ok.injEq, zext_toNat]
  constructor
  · rintro ⟨lo, ⟨h1, rfl⟩, hi, ⟨h2, rfl⟩, rfl⟩
    exact ⟨h1, h2, rfl⟩
  · rintro ⟨h1, h2, rfl⟩
    exact ⟨_, ⟨h1, rfl⟩, _, ⟨h2, rfl⟩, rfl⟩

/-- What a read of an operand answers: the immediate byte, or the byte at the effective address. -/
theorem readSource_mem_eq_ok_iff {m : MemMode} {s : State} {v : Byte} {c : Bool} :
    readSource (.mem m) s = .ok (v, c) ↔
      ∃ ea, effAddr m s = .ok (ea, c) ∧ ea.toNat < s.cfg.busSize ∧ v = s.peek ea.toNat := by
  simp only [readSource, bind_eq_ok_iff, memRead_eq_ok_iff, except_pure, Except.ok.injEq, Prod.mk.injEq]
  constructor
  · rintro ⟨⟨ea, c'⟩, he, v', ⟨h1, rfl⟩, rfl, rfl⟩
    exact ⟨ea, he, h1, rfl⟩
  · rintro ⟨ea, he, h1, rfl⟩
    exact ⟨(ea, c), he, _, ⟨h1, rfl⟩, rfl, rfl⟩

@[simp] theorem readSource_imm (v : Byte) (s : State) : readSource (.imm v) s = .ok (v, false) := rfl

/-! ### Push and pop -/

/-- Everything a push can do (R98). -/
theorem push_eq_ok_iff {v : Byte} {s t : State} :
    push v s = .ok t ↔
      0x0100 + s.sp.toNat < s.cfg.busSize ∧ t = (s.poke (0x0100 + s.sp.toNat) v).setReg .sp (s.sp - 1) := by
  simp only [push, bind_eq_ok_iff, memWrite_eq_ok_iff, except_pure, Except.ok.injEq, stackAddr_toNat]
  constructor
  · rintro ⟨u, ⟨h, rfl⟩, rfl⟩
    exact ⟨h, rfl⟩
  · rintro ⟨h, rfl⟩
    exact ⟨_, ⟨h, rfl⟩, rfl⟩

/-- Everything a pop can do (R98). -/
theorem pop_eq_ok_iff {v : Byte} {s t : State} :
    pop s = .ok (v, t) ↔
      0x0100 + (s.sp + 1).toNat < s.cfg.busSize ∧ v = s.peek (0x0100 + (s.sp + 1).toNat) ∧
        t = s.setReg .sp (s.sp + 1) := by
  simp only [pop, bind_eq_ok_iff, memRead_eq_ok_iff, except_pure, Except.ok.injEq, stackAddr_toNat, Prod.mk.injEq]
  constructor
  · rintro ⟨u, ⟨h, rfl⟩, rfl, rfl⟩
    exact ⟨h, rfl, rfl⟩
  · rintro ⟨h, rfl, rfl⟩
    exact ⟨_, ⟨h, rfl⟩, rfl, rfl⟩

end Sys2Proof.Machine
end

