-- ==== Sys2Proof/Laws/Exec.lean ====
section
/-! SUPPORT. What each shared operation of the meanings can do, said once: if it answers next s', then this is s'. Proofs about
single instructions cite these and unfold nothing. -/

namespace Sys2Proof.Machine

section Reads

variable {src : Source} {t : Timing} {s s' : State}

theorem load_eq_next_iff {r : Reg} :
    load r src t s = .next s' ↔
      ∃ v c, readSource src s = .ok (v, c) ∧ s' = finish t c ((s.setReg r v).setZN v) := by
  simp only [load, outcome_eq_next_iff, bind_eq_ok_iff, except_pure, Except.ok.injEq, Prod.exists, eq_comm (b := s')]

theorem adc_eq_next_iff :
    adc src t s = .next s' ↔
      ∃ m c, readSource src s = .ok (m, c) ∧
        s' = finish t c ((s.setReg .a (BitVec.ofNat 8 (adcSum (s.flag .d) s.a m (s.flag .c)))).mapP
          (withArithFlags (decide (0xFF < adcSum (s.flag .d) s.a m (s.flag .c)))
            (adcOverflow s.a m (BitVec.ofNat 8 (adcSum (s.flag .d) s.a m (s.flag .c))))
            (BitVec.ofNat 8 (adcSum (s.flag .d) s.a m (s.flag .c))))) := by
  simp only [adc, outcome_eq_next_iff, bind_eq_ok_iff, except_pure, Except.ok.injEq, Prod.exists, eq_comm (b := s')]

theorem sbc_eq_next_iff :
    sbc src t s = .next s' ↔
      ∃ m c, readSource src s = .ok (m, c) ∧
        s' = finish t c ((s.setReg .a (sbcResult (s.flag .d) s.a m (s.flag .c))).mapP
          (withArithFlags (decide (0 ≤ sbcDiff s.a m (s.flag .c)))
            (sbcOverflow s.a m (sbcResult (s.flag .d) s.a m (s.flag .c)))
            (sbcResult (s.flag .d) s.a m (s.flag .c)))) := by
  simp only [sbc, outcome_eq_next_iff, bind_eq_ok_iff, except_pure, Except.ok.injEq, Prod.exists, eq_comm (b := s')]

theorem logic_eq_next_iff {f : Byte → Byte → Byte} :
    logic f src t s = .next s' ↔
      ∃ m c, readSource src s = .ok (m, c) ∧ s' = finish t c ((s.setReg .a (f s.a m)).setZN (f s.a m)) := by
  simp only [logic, outcome_eq_next_iff, bind_eq_ok_iff, except_pure, Except.ok.injEq, Prod.exists, eq_comm (b := s')]

theorem bit_eq_next_iff :
    bit src t s = .next s' ↔
      ∃ m c, readSource src s = .ok (m, c) ∧ s' = finish t c (s.mapP (withBitFlags s.a m)) := by
  simp only [bit, outcome_eq_next_iff, bind_eq_ok_iff, except_pure, Except.ok.injEq, Prod.exists, eq_comm (b := s')]

theorem compareWith_eq_next_iff {r : Reg} :
    compareWith r src t s = .next s' ↔
      ∃ m c, readSource src s = .ok (m, c) ∧ s' = finish t c (s.mapP (withCompareFlags (s.reg r) m)) := by
  simp only [compareWith, outcome_eq_next_iff, bind_eq_ok_iff, except_pure, Except.ok.injEq, Prod.exists, eq_comm (b := s')]

end Reads

section Writes

variable {t : Timing} {s s' : State} {m : MemMode}

theorem store_eq_next_iff {r : Reg} :
    store r m t s = .next s' ↔
      ∃ ea c, effAddr m s = .ok (ea, c) ∧ ea.toNat < s.cfg.busSize ∧
        s' = finish t c (s.poke ea.toNat (s.reg r)) := by
  simp only [store, outcome_eq_next_iff, bind_eq_ok_iff, memWrite_eq_ok_iff, except_pure, Except.ok.injEq, Prod.exists]
  constructor
  · rintro ⟨ea, c, he, u, ⟨h, rfl⟩, rfl⟩
    exact ⟨ea, c, he, h, rfl⟩
  · rintro ⟨ea, c, he, h, rfl⟩
    exact ⟨ea, c, he, _, ⟨h, rfl⟩, rfl⟩

theorem shift_acc (f : Bool → Byte → Byte × Bool) :
    shift f .acc t s =
      .next (finish t false (((s.setReg .a (f (s.flag .c) s.a).1).mapP (withFlag .c (f (s.flag .c) s.a).2)).setZN
        (f (s.flag .c) s.a).1)) := rfl

theorem shift_mem_eq_next_iff {f : Bool → Byte → Byte × Bool} :
    shift f (.mem m) t s = .next s' ↔
      ∃ ea c, effAddr m s = .ok (ea, c) ∧ ea.toNat < s.cfg.busSize ∧
        s' = finish t false
          (((s.poke ea.toNat (f (s.flag .c) (s.peek ea.toNat)).1).mapP
            (withFlag .c (f (s.flag .c) (s.peek ea.toNat)).2)).setZN (f (s.flag .c) (s.peek ea.toNat)).1) := by
  simp only [shift, resolvePlace, outcome_eq_next_iff, bind_eq_ok_iff, except_pure, Except.ok.injEq, Prod.exists]
  constructor
  · rintro ⟨loc, ⟨ea, c, he, rfl⟩, v, hr, u, hw, rfl⟩
    obtain ⟨h, rfl⟩ := memRead_eq_ok_iff.1 hr
    obtain ⟨_, rfl⟩ := memWrite_eq_ok_iff.1 hw
    exact ⟨ea, c, he, h, rfl⟩
  · rintro ⟨ea, c, he, h, rfl⟩
    exact ⟨.cell ea, ⟨ea, c, he, rfl⟩, _, memRead_ok h, _, memWrite_ok h, rfl⟩

theorem addToCell_eq_next_iff {k : Byte} :
    addToCell k m t s = .next s' ↔
      ∃ ea c, effAddr m s = .ok (ea, c) ∧ ea.toNat < s.cfg.busSize ∧
        s' = finish t false ((s.poke ea.toNat (s.peek ea.toNat + k)).setZN (s.peek ea.toNat + k)) := by
  simp only [addToCell, outcome_eq_next_iff, bind_eq_ok_iff, memRead_eq_ok_iff, memWrite_eq_ok_iff, except_pure,
    Except.ok.injEq, Prod.exists]
  constructor
  · rintro ⟨ea, c, he, v, ⟨h, rfl⟩, u, ⟨_, rfl⟩, rfl⟩
    exact ⟨ea, c, he, h, rfl⟩
  · rintro ⟨ea, c, he, h, rfl⟩
    exact ⟨ea, c, he, _, ⟨h, rfl⟩, _, ⟨h, rfl⟩, rfl⟩

theorem pushByte_eq_next_iff {v : Byte} :
    pushByte v t s = .next s' ↔
      0x0100 + s.sp.toNat < s.cfg.busSize ∧
        s' = finish t false ((s.poke (0x0100 + s.sp.toNat) v).setReg .sp (s.sp - 1)) := by
  simp only [pushByte, outcome_eq_next_iff, bind_eq_ok_iff, push_eq_ok_iff, except_pure, Except.ok.injEq]
  constructor
  · rintro ⟨u, ⟨h, rfl⟩, rfl⟩
    exact ⟨h, rfl⟩
  · rintro ⟨h, rfl⟩
    exact ⟨_, ⟨h, rfl⟩, rfl⟩

theorem pullByte_eq_next_iff {f : Byte → State → State} :
    pullByte f t s = .next s' ↔
      0x0100 + (s.sp + 1).toNat < s.cfg.busSize ∧
        s' = finish t false (f (s.peek (0x0100 + (s.sp + 1).toNat)) (s.setReg .sp (s.sp + 1))) := by
  simp only [pullByte, outcome_eq_next_iff, bind_eq_ok_iff, except_pure, Except.ok.injEq, Prod.exists, pop_eq_ok_iff]
  constructor
  · rintro ⟨v, u, ⟨h, rfl, rfl⟩, rfl⟩
    exact ⟨h, rfl⟩
  · rintro ⟨h, rfl⟩
    exact ⟨_, _, ⟨h, rfl, rfl⟩, rfl⟩

end Writes

section Always

variable {t : Timing} {s : State}

theorem transfer_eq_next (src dst : Reg) :
    transfer src dst t s = .next (finish t false ((s.setReg dst (s.reg src)).setZN (s.reg src))) := rfl

theorem addToReg_eq_next (k : Byte) (r : Reg) :
    addToReg k r t s = .next (finish t false ((s.setReg r (s.reg r + k)).setZN (s.reg r + k))) := rfl

theorem writeFlag_eq_next (f : Flag) (v : Bool) :
    writeFlag f v t s = .next (finish t false (s.mapP (withFlag f v))) := rfl

end Always

section Control

variable {s s' : State} {base : Nat}

theorem jump_eq_next_iff {m : JumpMode} :
    jump m base s = .next s' ↔ ∃ w, jumpTarget m s = .ok w ∧ s' = s.goTo w base := by
  simp only [jump, outcome_eq_next_iff, bind_eq_ok_iff, except_pure, Except.ok.injEq, eq_comm (b := s')]

theorem callSubroutine_absolute_eq_next_iff {w : Word} :
    callSubroutine (.absolute w) base s = .next s' ↔
      0x0100 + s.sp.toNat < s.cfg.busSize ∧ 0x0100 + (s.sp - 1).toNat < s.cfg.busSize ∧
        s' = ((((s.poke (0x0100 + s.sp.toNat) (returnAddress s).hi).setReg .sp (s.sp - 1)).poke
          (0x0100 + (s.sp - 1).toNat) (returnAddress s).lo).setReg .sp (s.sp - 1 - 1)).goTo w base := by
  simp only [callSubroutine, jumpTarget, outcome_eq_next_iff, bind_eq_ok_iff, push_eq_ok_iff, except_pure, Except.ok.injEq]
  constructor
  · rintro ⟨_, rfl, s1, ⟨h1, rfl⟩, s2, ⟨h2, rfl⟩, rfl⟩
    exact ⟨h1, h2, rfl⟩
  · rintro ⟨h1, h2, rfl⟩
    exact ⟨_, rfl, _, ⟨h1, rfl⟩, _, ⟨h2, rfl⟩, rfl⟩

theorem returnFromSubroutine_eq_next_iff :
    returnFromSubroutine base s = .next s' ↔
      0x0100 + (s.sp + 1).toNat < s.cfg.busSize ∧ 0x0100 + (s.sp + 1 + 1).toNat < s.cfg.busSize ∧
        s' = ((s.setReg .sp (s.sp + 1)).setReg .sp (s.sp + 1 + 1)).goTo
          (wordOf (s.peek (0x0100 + (s.sp + 1).toNat)) (s.peek (0x0100 + (s.sp + 1 + 1).toNat)) +
            (3 - pushOffset s.cfg.jsrPushOffset)) base := by
  simp only [returnFromSubroutine, outcome_eq_next_iff, bind_eq_ok_iff, except_pure, Except.ok.injEq, Prod.exists,
    pop_eq_ok_iff]
  constructor
  · rintro ⟨lo, s1, ⟨h1, rfl, rfl⟩, hi, s2, ⟨h2, rfl, rfl⟩, rfl⟩
    exact ⟨h1, h2, rfl⟩
  · rintro ⟨h1, h2, rfl⟩
    exact ⟨_, _, ⟨h1, rfl, rfl⟩, _, _, ⟨h2, rfl, rfl⟩, rfl⟩

theorem returnFromInterrupt_eq_next_iff :
    returnFromInterrupt base s = .next s' ↔
      0x0100 + (s.sp + 1).toNat < s.cfg.busSize ∧ 0x0100 + (s.sp + 1 + 1).toNat < s.cfg.busSize ∧
      0x0100 + (s.sp + 1 + 1 + 1).toNat < s.cfg.busSize ∧
        s' = ((((s.setReg .sp (s.sp + 1)).setReg .sp (s.sp + 1 + 1)).setReg .sp (s.sp + 1 + 1 + 1)).mapP
            fun _ => statusByte (s.peek (0x0100 + (s.sp + 1).toNat))).goTo
          (wordOf (s.peek (0x0100 + (s.sp + 1 + 1).toNat)) (s.peek (0x0100 + (s.sp + 1 + 1 + 1).toNat))) base := by
  simp only [returnFromInterrupt, outcome_eq_next_iff, bind_eq_ok_iff, except_pure, Except.ok.injEq, Prod.exists,
    pop_eq_ok_iff]
  constructor
  · rintro ⟨p, s1, ⟨h1, rfl, rfl⟩, lo, s2, ⟨h2, rfl, rfl⟩, hi, s3, ⟨h3, rfl, rfl⟩, rfl⟩
    exact ⟨h1, h2, h3, rfl⟩
  · rintro ⟨h1, h2, h3, rfl⟩
    exact ⟨_, _, ⟨h1, rfl, rfl⟩, _, _, ⟨h2, rfl, rfl⟩, _, _, ⟨h3, rfl, rfl⟩, rfl⟩

/-- A branch always completes (R170): the only failure is the fetch's. -/
theorem branch_eq_next (cond : Bool) (d : Byte) (s : State) :
    branch cond d s =
      .next (s.goTo (if cond then branchTarget d s else branchNext s)
        (if cond then (2 + if pageCross (branchNext s) (branchTarget d s) then 2 else 1) else 2)) := by
  cases cond <;> rfl

end Control

end Sys2Proof.Machine
end

