-- ==== Sys2Proof/Laws/Interface.lean ====
section
/-! SUPPORT. What the BUS's range operations do, said once each, and that every operation on cells or aliases keeps the canonical
form (spec/20_memory.md R32 to R37). -/

namespace Sys2Proof.Machine

variable {s : State}

theorem State.rangeOk_iff {first last : Nat} :
    s.rangeOk first last = true ↔ first ≤ last ∧ last < s.cfg.busSize := by
  simp [State.rangeOk]

/-- Zeroing a range: every cell is zeroed and named by an address of the range, or as it was and named by none (R34, R35). -/
theorem clearCells_spec (n a : Nat) (s : State) :
    (clearCells n a s).snapshot = s.snapshot ∧ (clearCells n a s).cfg = s.cfg ∧ (clearCells n a s).refs = s.refs ∧
      ∀ c, ((clearCells n a s).cells.cell c = 0x00 ∧ ∃ b, a ≤ b ∧ b < a + n ∧ s.ref b = c) ∨
        ((clearCells n a s).cells.cell c = s.cells.cell c ∧ ∀ b, a ≤ b → b < a + n → s.ref b ≠ c) := by
  induction n generalizing a s with
  | zero => exact ⟨rfl, rfl, rfl, fun c => .inr ⟨rfl, fun b h1 h2 => by omega⟩⟩
  | succ n ih =>
    obtain ⟨h1, h2, h3, h4⟩ := ih (a + 1) (s.poke a 0x00)
    refine ⟨h1.trans rfl, h2, h3, fun c => ?_⟩
    simp only [clearCells]
    rcases h4 c with ⟨h, b, hb⟩ | ⟨h, hb⟩
    · exact .inl ⟨h, b, by omega, by omega, hb.2.2⟩
    · by_cases e : s.ref a = c
      · exact .inl ⟨by rw [h]; simp [e], a, by omega, by omega, e⟩
      · refine .inr ⟨by rw [h, State.poke_cells, Memory.cell_setCell, if_neg fun h => e h.symm], fun b h1 h2 => ?_⟩
        rcases Nat.eq_or_lt_of_le h1 with rfl | h1
        · exact e
        · exact hb b h1 (by omega)

/-- Copying references in ascending order (R36). -/
theorem copyRefs_spec (n a d : Nat) (s : State) :
    (copyRefs n a d s).snapshot = s.snapshot ∧ (copyRefs n a d s).cfg = s.cfg ∧ (copyRefs n a d s).cells = s.cells ∧
      (∀ b, b < d ∨ d + n ≤ b → (copyRefs n a d s).ref b = s.ref b) ∧
      ∀ k, k < n → (copyRefs n a d s).ref (d + k) =
        if d ≤ a + k ∧ a + k < d + k then (copyRefs n a d s).ref (a + k) else s.ref (a + k) := by
  induction n generalizing a d s with
  | zero => exact ⟨rfl, rfl, rfl, fun _ _ => rfl, fun k h => by omega⟩
  | succ n ih =>
    obtain ⟨h1, h2, h3, h4, h5⟩ := ih (a + 1) (d + 1) (s.setRef d (s.ref a))
    simp only [copyRefs]
    refine ⟨h1.trans rfl, h2, h3, fun b hb => ?_, fun k hk => ?_⟩
    · rw [h4 b (by omega), State.ref_setRef, if_neg (by omega)]
    · cases k with
      | zero => rw [h4 _ (by omega), State.ref_setRef, if_pos (by omega), if_neg (by omega)]; rfl
      | succ k =>
        rw [show d + (k + 1) = d + 1 + k by omega, show a + (k + 1) = a + 1 + k by omega, h5 k (by omega)]
        by_cases e : a + 1 + k = d
        · rw [if_neg (by omega), if_pos (by omega), h4 _ (by omega)]
        · by_cases e2 : d + 1 ≤ a + 1 + k ∧ a + 1 + k < d + 1 + k
          · rw [if_pos e2, if_pos (by omega)]
          · rw [if_neg e2, if_neg (by omega), State.ref_setRef, if_neg e]

/-- Restoring references (R37). -/
theorem clearRefs_spec (n a : Nat) (s : State) :
    (clearRefs n a s).snapshot = s.snapshot ∧ (clearRefs n a s).cfg = s.cfg ∧ (clearRefs n a s).cells = s.cells ∧
      (∀ b, b < a ∨ a + n ≤ b → (clearRefs n a s).ref b = s.ref b) ∧
      ∀ b, a ≤ b → b < a + n → (clearRefs n a s).ref b = b := by
  induction n generalizing a s with
  | zero => exact ⟨rfl, rfl, rfl, fun _ _ => rfl, fun k h => by omega⟩
  | succ n ih =>
    obtain ⟨h1, h2, h3, h4, h5⟩ := ih (a + 1) (s.setRef a a)
    simp only [clearRefs]
    refine ⟨h1.trans rfl, h2, h3, fun b hb => ?_, fun b hb hb' => ?_⟩
    · rw [h4 b (by omega), State.ref_setRef, if_neg (by omega)]
    · by_cases e : b = a
      · rw [h4 _ (by omega), State.ref_setRef, if_pos e, e]
      · exact h5 b (by omega) (by omega)

/-! ### The canonical form -/

theorem State.reset_cells_wf : State.reset.cells.wf := ⟨.nil, fun _ h => by cases h⟩

theorem State.reset_refs_wf : State.reset.refs.wf := ⟨.nil, fun _ h => by cases h⟩

theorem State.poke_cells_wf (a : Nat) (v : Byte) (h : s.cells.wf) : (s.poke a v).cells.wf := Memory.setCell_wf _ v h

theorem State.setRef_refs_wf (a i : Nat) (h : s.refs.wf) : (s.setRef a i).refs.wf := AliasTable.setRef_wf a i h

theorem clearCells_cells_wf (n a : Nat) (h : s.cells.wf) : (clearCells n a s).cells.wf := by
  induction n generalizing a s with
  | zero => exact h
  | succ n ih => exact ih _ (State.poke_cells_wf a _ h)

theorem copyRefs_refs_wf (n a d : Nat) (h : s.refs.wf) : (copyRefs n a d s).refs.wf := by
  induction n generalizing a d s with
  | zero => exact h
  | succ n ih => exact ih _ _ (State.setRef_refs_wf d _ h)

theorem clearRefs_refs_wf (n a : Nat) (h : s.refs.wf) : (clearRefs n a s).refs.wf := by
  induction n generalizing a s with
  | zero => exact h
  | succ n ih => exact ih _ (State.setRef_refs_wf a _ h)

end Sys2Proof.Machine
end

