-- ==== Sys2Proof/Tests/Slice0.lean ====
section
/-! SUPPORT. Tests of the model and witnesses for the hypotheses of the statements. The expected results of the instruction tests
are those of spec/95_test_vectors.md sections 2 and 3 (the vector's number stands over each test), those of the decode tests the
opcode bytes of spec/30_encoding.md R62 and R66. -/

namespace Sys2Proof.Tests

open Sys2Proof Sys2Proof.Machine

/-! ### The checks refuse ill-formed terms -/

theorem test_config_without_cells_is_ill_formed : Config.wf { Config.default with busSize := 0 } = false := by decide
theorem test_config_without_cycle_bits_is_ill_formed : Config.wf { Config.default with cycWidth := 0 } = false := by decide
theorem test_default_config_is_well_formed : Config.wf Config.default = true := by decide
theorem test_unordered_cells_are_ill_formed : ¬ Memory.wf [(2, 0x01), (1, 0x01)] := by decide
theorem test_repeated_cells_are_ill_formed : ¬ Memory.wf [(1, 0x01), (1, 0x02)] := by decide
theorem test_listed_default_is_ill_formed : ¬ Memory.wf [(1, unlistedByte 1)] := by decide
theorem test_listed_own_cell_is_ill_formed : ¬ AliasTable.wf [(3, 3)] := by decide
theorem test_unordered_aliases_are_ill_formed : ¬ AliasTable.wf [(3, 0), (2, 0)] := by decide
theorem test_cell_beyond_n_is_out_of_range : ¬ Memory.within [(4, 0x01)] 4 := by decide
theorem test_alias_beyond_n_is_out_of_range : ¬ AliasTable.within [(1, 4)] 4 := by decide
theorem test_every_instruction_is_well_formed (i : Instr) : i.wellFormed = true := rfl

/-! ### Decoding: every constructor from bytes written out from R62 and R66, operand byte 0x80 or word 0x1280 -/

/-- These bytes are exactly this instruction. -/
def decodesTo (bytes : List Byte) (i : Instr) : Bool :=
  match decode bytes with
  | .ok (j, []) => j == i
  | .ok (_, _ :: _) => false
  | .error _ => false

theorem test_decode_load_store_transfer_1 :
    decodesTo [0xA9, 0x80] (.ldaImm 0x80) ∧
    decodesTo [0xA5, 0x80] (.ldaZp 0x80) ∧
    decodesTo [0xB5, 0x80] (.ldaZpX 0x80) ∧
    decodesTo [0xAD, 0x80, 0x12] (.ldaAbs 0x1280) ∧
    decodesTo [0xBD, 0x80, 0x12] (.ldaAbsX 0x1280) ∧
    decodesTo [0xB9, 0x80, 0x12] (.ldaAbsY 0x1280) ∧
    decodesTo [0xA1, 0x80] (.ldaIndX 0x80) ∧
    decodesTo [0xB1, 0x80] (.ldaIndY 0x80) ∧
    decodesTo [0xA2, 0x80] (.ldxImm 0x80) ∧
    decodesTo [0xA6, 0x80] (.ldxZp 0x80) ∧
    decodesTo [0xB6, 0x80] (.ldxZpY 0x80) ∧
    decodesTo [0xAE, 0x80, 0x12] (.ldxAbs 0x1280) ∧
    decodesTo [0xBE, 0x80, 0x12] (.ldxAbsY 0x1280) ∧
    decodesTo [0xA0, 0x80] (.ldyImm 0x80) ∧
    decodesTo [0xA4, 0x80] (.ldyZp 0x80) ∧
    decodesTo [0xB4, 0x80] (.ldyZpX 0x80) := by
  decide

theorem test_decode_load_store_transfer_2 :
    decodesTo [0xAC, 0x80, 0x12] (.ldyAbs 0x1280) ∧
    decodesTo [0xBC, 0x80, 0x12] (.ldyAbsX 0x1280) ∧
    decodesTo [0x85, 0x80] (.staZp 0x80) ∧
    decodesTo [0x95, 0x80] (.staZpX 0x80) ∧
    decodesTo [0x8D, 0x80, 0x12] (.staAbs 0x1280) ∧
    decodesTo [0x9D, 0x80, 0x12] (.staAbsX 0x1280) ∧
    decodesTo [0x99, 0x80, 0x12] (.staAbsY 0x1280) ∧
    decodesTo [0x81, 0x80] (.staIndX 0x80) ∧
    decodesTo [0x91, 0x80] (.staIndY 0x80) ∧
    decodesTo [0x86, 0x80] (.stxZp 0x80) ∧
    decodesTo [0x96, 0x80] (.stxZpY 0x80) ∧
    decodesTo [0x8E, 0x80, 0x12] (.stxAbs 0x1280) ∧
    decodesTo [0x84, 0x80] (.styZp 0x80) ∧
    decodesTo [0x94, 0x80] (.styZpX 0x80) ∧
    decodesTo [0x8C, 0x80, 0x12] (.styAbs 0x1280) ∧
    decodesTo [0xAA] .tax := by
  decide

theorem test_decode_load_store_transfer_3 :
    decodesTo [0xA8] .tay ∧
    decodesTo [0x8A] .txa ∧
    decodesTo [0x98] .tya ∧
    decodesTo [0xBA] .tsx ∧
    decodesTo [0x9A] .txs := by
  decide

theorem test_decode_arithmetic_logic_compare_1 :
    decodesTo [0x69, 0x80] (.adcImm 0x80) ∧
    decodesTo [0x65, 0x80] (.adcZp 0x80) ∧
    decodesTo [0x75, 0x80] (.adcZpX 0x80) ∧
    decodesTo [0x6D, 0x80, 0x12] (.adcAbs 0x1280) ∧
    decodesTo [0x7D, 0x80, 0x12] (.adcAbsX 0x1280) ∧
    decodesTo [0x79, 0x80, 0x12] (.adcAbsY 0x1280) ∧
    decodesTo [0x61, 0x80] (.adcIndX 0x80) ∧
    decodesTo [0x71, 0x80] (.adcIndY 0x80) ∧
    decodesTo [0xE9, 0x80] (.sbcImm 0x80) ∧
    decodesTo [0xE5, 0x80] (.sbcZp 0x80) ∧
    decodesTo [0xF5, 0x80] (.sbcZpX 0x80) ∧
    decodesTo [0xED, 0x80, 0x12] (.sbcAbs 0x1280) ∧
    decodesTo [0xFD, 0x80, 0x12] (.sbcAbsX 0x1280) ∧
    decodesTo [0xF9, 0x80, 0x12] (.sbcAbsY 0x1280) ∧
    decodesTo [0xE1, 0x80] (.sbcIndX 0x80) ∧
    decodesTo [0xF1, 0x80] (.sbcIndY 0x80) := by
  decide

theorem test_decode_arithmetic_logic_compare_2 :
    decodesTo [0x29, 0x80] (.andImm 0x80) ∧
    decodesTo [0x25, 0x80] (.andZp 0x80) ∧
    decodesTo [0x35, 0x80] (.andZpX 0x80) ∧
    decodesTo [0x2D, 0x80, 0x12] (.andAbs 0x1280) ∧
    decodesTo [0x3D, 0x80, 0x12] (.andAbsX 0x1280) ∧
    decodesTo [0x39, 0x80, 0x12] (.andAbsY 0x1280) ∧
    decodesTo [0x21, 0x80] (.andIndX 0x80) ∧
    decodesTo [0x31, 0x80] (.andIndY 0x80) ∧
    decodesTo [0x09, 0x80] (.oraImm 0x80) ∧
    decodesTo [0x05, 0x80] (.oraZp 0x80) ∧
    decodesTo [0x15, 0x80] (.oraZpX 0x80) ∧
    decodesTo [0x0D, 0x80, 0x12] (.oraAbs 0x1280) ∧
    decodesTo [0x1D, 0x80, 0x12] (.oraAbsX 0x1280) ∧
    decodesTo [0x19, 0x80, 0x12] (.oraAbsY 0x1280) ∧
    decodesTo [0x01, 0x80] (.oraIndX 0x80) ∧
    decodesTo [0x11, 0x80] (.oraIndY 0x80) := by
  decide

theorem test_decode_arithmetic_logic_compare_3 :
    decodesTo [0x49, 0x80] (.eorImm 0x80) ∧
    decodesTo [0x45, 0x80] (.eorZp 0x80) ∧
    decodesTo [0x55, 0x80] (.eorZpX 0x80) ∧
    decodesTo [0x4D, 0x80, 0x12] (.eorAbs 0x1280) ∧
    decodesTo [0x5D, 0x80, 0x12] (.eorAbsX 0x1280) ∧
    decodesTo [0x59, 0x80, 0x12] (.eorAbsY 0x1280) ∧
    decodesTo [0x41, 0x80] (.eorIndX 0x80) ∧
    decodesTo [0x51, 0x80] (.eorIndY 0x80) ∧
    decodesTo [0x24, 0x80] (.bitZp 0x80) ∧
    decodesTo [0x2C, 0x80, 0x12] (.bitAbs 0x1280) ∧
    decodesTo [0xC9, 0x80] (.cmpImm 0x80) ∧
    decodesTo [0xC5, 0x80] (.cmpZp 0x80) ∧
    decodesTo [0xD5, 0x80] (.cmpZpX 0x80) ∧
    decodesTo [0xCD, 0x80, 0x12] (.cmpAbs 0x1280) ∧
    decodesTo [0xDD, 0x80, 0x12] (.cmpAbsX 0x1280) ∧
    decodesTo [0xD9, 0x80, 0x12] (.cmpAbsY 0x1280) := by
  decide

theorem test_decode_arithmetic_logic_compare_4 :
    decodesTo [0xC1, 0x80] (.cmpIndX 0x80) ∧
    decodesTo [0xD1, 0x80] (.cmpIndY 0x80) ∧
    decodesTo [0xE0, 0x80] (.cpxImm 0x80) ∧
    decodesTo [0xE4, 0x80] (.cpxZp 0x80) ∧
    decodesTo [0xEC, 0x80, 0x12] (.cpxAbs 0x1280) ∧
    decodesTo [0xC0, 0x80] (.cpyImm 0x80) ∧
    decodesTo [0xC4, 0x80] (.cpyZp 0x80) ∧
    decodesTo [0xCC, 0x80, 0x12] (.cpyAbs 0x1280) := by
  decide

theorem test_decode_shift_rotate_incdec_1 :
    decodesTo [0x0A] .aslAcc ∧
    decodesTo [0x06, 0x80] (.aslZp 0x80) ∧
    decodesTo [0x16, 0x80] (.aslZpX 0x80) ∧
    decodesTo [0x0E, 0x80, 0x12] (.aslAbs 0x1280) ∧
    decodesTo [0x1E, 0x80, 0x12] (.aslAbsX 0x1280) ∧
    decodesTo [0x4A] .lsrAcc ∧
    decodesTo [0x46, 0x80] (.lsrZp 0x80) ∧
    decodesTo [0x56, 0x80] (.lsrZpX 0x80) ∧
    decodesTo [0x4E, 0x80, 0x12] (.lsrAbs 0x1280) ∧
    decodesTo [0x5E, 0x80, 0x12] (.lsrAbsX 0x1280) ∧
    decodesTo [0x2A] .rolAcc ∧
    decodesTo [0x26, 0x80] (.rolZp 0x80) ∧
    decodesTo [0x36, 0x80] (.rolZpX 0x80) ∧
    decodesTo [0x2E, 0x80, 0x12] (.rolAbs 0x1280) ∧
    decodesTo [0x3E, 0x80, 0x12] (.rolAbsX 0x1280) ∧
    decodesTo [0x6A] .rorAcc := by
  decide

theorem test_decode_shift_rotate_incdec_2 :
    decodesTo [0x66, 0x80] (.rorZp 0x80) ∧
    decodesTo [0x76, 0x80] (.rorZpX 0x80) ∧
    decodesTo [0x6E, 0x80, 0x12] (.rorAbs 0x1280) ∧
    decodesTo [0x7E, 0x80, 0x12] (.rorAbsX 0x1280) ∧
    decodesTo [0xE6, 0x80] (.incZp 0x80) ∧
    decodesTo [0xF6, 0x80] (.incZpX 0x80) ∧
    decodesTo [0xEE, 0x80, 0x12] (.incAbs 0x1280) ∧
    decodesTo [0xFE, 0x80, 0x12] (.incAbsX 0x1280) ∧
    decodesTo [0xC6, 0x80] (.decZp 0x80) ∧
    decodesTo [0xD6, 0x80] (.decZpX 0x80) ∧
    decodesTo [0xCE, 0x80, 0x12] (.decAbs 0x1280) ∧
    decodesTo [0xDE, 0x80, 0x12] (.decAbsX 0x1280) ∧
    decodesTo [0xE8] .inx ∧
    decodesTo [0xC8] .iny ∧
    decodesTo [0xCA] .dex ∧
    decodesTo [0x88] .dey := by
  decide

theorem test_decode_branch_jump_subroutine :
    decodesTo [0x90, 0x80] (.bcc 0x80) ∧
    decodesTo [0xB0, 0x80] (.bcs 0x80) ∧
    decodesTo [0xF0, 0x80] (.beq 0x80) ∧
    decodesTo [0x30, 0x80] (.bmi 0x80) ∧
    decodesTo [0xD0, 0x80] (.bne 0x80) ∧
    decodesTo [0x10, 0x80] (.bpl 0x80) ∧
    decodesTo [0x50, 0x80] (.bvc 0x80) ∧
    decodesTo [0x70, 0x80] (.bvs 0x80) ∧
    decodesTo [0x4C, 0x80, 0x12] (.jmpAbs 0x1280) ∧
    decodesTo [0x6C, 0x80, 0x12] (.jmpInd 0x1280) ∧
    decodesTo [0x20, 0x80, 0x12] (.jsr 0x1280) ∧
    decodesTo [0x60] .rts ∧
    decodesTo [0x40] .rti := by
  decide

theorem test_decode_stack_flag_system :
    decodesTo [0x48] .pha ∧
    decodesTo [0x08] .php ∧
    decodesTo [0x68] .pla ∧
    decodesTo [0x28] .plp ∧
    decodesTo [0x18] .clc ∧
    decodesTo [0x38] .sec ∧
    decodesTo [0x58] .cli ∧
    decodesTo [0x78] .sei ∧
    decodesTo [0xD8] .cld ∧
    decodesTo [0xF8] .sed ∧
    decodesTo [0xB8] .clv ∧
    decodesTo [0xEA] .nop ∧
    decodesTo [0x00] .brk := by
  decide

/-- R64: 0xFF is undefined, and is refused by name. -/
theorem test_decode_refuses_an_undefined_opcode : decode [0xFF, 0x00] = .error (.undefinedOpcode 0xFF) := rfl

theorem test_decode_refuses_a_missing_operand : ∃ e, decode [0xAD, 0x34] = .error e := ⟨_, rfl⟩

theorem test_encode_of_an_operand_word : encode (.jsr 0x1234) = [0x20, 0x34, 0x12] := by decide

/-! ### The host's access: table words, and the first step after reset -/

theorem test_table_word_of_lda_imm : decodeTableWord 8 0xA9 = some (.ldaImm 0x00) := by decide
theorem test_table_word_of_jsr_with_operand : decodeTableWord 24 0x123420 = some (.jsr 0x1234) := by decide
theorem test_table_word_drops_the_bits_above : decodeTableWord 8 0xFFA9 = some (.ldaImm 0x00) := by decide
theorem test_table_word_undefined : decodeTableWord 8 0x02 = none := by decide

/-- Reset registers but for PC, the default parameters, these cells. -/
def launch (pc : Word) (cells : Memory) : State := { State.reset with pc := pc, cells := cells }

/-- The default parameters but for JSR_PUSH_OFFSET = 3. -/
def offsetThree : Config := { Config.default with jsrPushOffset := .three }

/-- A BUS of n cells. -/
def short (n : Nat) : Config := { Config.default with busSize := n }

/-- Put bytes at PC. -/
def put (bytes : List Byte) (s : State) : State := placeBytes bytes s.pc s

/-- What a next state shows; none for a stop. -/
def reads {α : Type} (o : Host.Outcome State Fault Refusal) (f : State → α) : Option α :=
  match o with
  | .next t => some (f t)
  | .fault _ => none
  | .refused _ => none

theorem test_fetch_word_runs_as_the_first_step :
    reads (step (State.reset.withFetchWord 8 0xA2)) (fun t => (t.x, t.p, t.pc, t.cyc)) = some (0x00, 0x22, 0x0002, 2) := by
  decide

/-- Program P2, step 3, with the operand word of the table's word. -/
theorem test_fetch_word_with_operand :
    reads (step (State.reset.withFetchWord 24 0x123420)) (fun t => (t.pc, t.sp, t.cyc)) = some (0x1234, 0xFD, 6) := by
  decide

/-! ### Instructions, one STEP each -/

/-- LS1, LDA #$00. -/
theorem test_lda_imm_of_zero_sets_z :
    reads (step (put [0xA9, 0x00] { launch 0x0200 [] with a := 0x55 })) 
      (fun t => (t.a, t.p, t.pc, t.cyc)) =
      some (0x00, 0x22, 0x0202, 2) := by
  decide

/-- LS2, LDA #$80. -/
theorem test_lda_imm_of_0x80_sets_n :
    reads (step (put [0xA9, 0x80] (launch 0x0200 []))) 
      (fun t => (t.a, t.p, t.pc, t.cyc)) =
      some (0x80, 0xA0, 0x0202, 2) := by
  decide

/-- LS4, LDA $FF,X. -/
theorem test_lda_zpx_wraps_in_page_zero :
    reads (step (put [0xB5, 0xFF] { launch 0x0200 [(0x0001, 0x42), (0x0101, 0x99)] with x := 0x02 })) 
      (fun t => (t.a, t.x, t.p, t.pc, t.cyc)) =
      some (0x42, 0x02, 0x20, 0x0202, 4) := by
  decide

/-- LS6, LDA $12F0,X. -/
theorem test_lda_absx_pays_for_a_page_cross :
    reads (step (put [0xBD, 0xF0, 0x12] { launch 0x0200 [(0x1310, 0xAA)] with x := 0x20 })) 
      (fun t => (t.a, t.x, t.p, t.pc, t.cyc)) =
      some (0xAA, 0x20, 0xA0, 0x0203, 5) := by
  decide

/-- LS7, LDA $12F0,X. -/
theorem test_lda_absx_same_page_pays_nothing :
    reads (step (put [0xBD, 0xF0, 0x12] { launch 0x0200 [(0x12FF, 0x33)] with x := 0x0F })) 
      (fun t => (t.a, t.x, t.p, t.pc, t.cyc)) =
      some (0x33, 0x0F, 0x20, 0x0203, 4) := by
  decide

/-- LS8, LDA $FFFF,Y. -/
theorem test_lda_absy_wraps_at_the_top :
    reads (step (put [0xB9, 0xFF, 0xFF] { launch 0x0200 [(0x0000, 0x5A)] with y := 0x01 })) 
      (fun t => (t.a, t.y, t.p, t.pc, t.cyc)) =
      some (0x5A, 0x01, 0x20, 0x0203, 5) := by
  decide

/-- LS10, LDA ($FF,X). -/
theorem test_lda_indx_pointer_wraps_in_page_zero :
    reads (step (put [0xA1, 0xFF] (launch 0x0200 [(0x0000, 0x12), (0x00FF, 0x34), (0x0100, 0x99), (0x1234, 0x66)]))) 
      (fun t => (t.a, t.x, t.p, t.pc, t.cyc)) =
      some (0x66, 0x00, 0x20, 0x0202, 6) := by
  decide

/-- LS11, LDA ($20),Y. -/
theorem test_lda_indy_pays_for_a_page_cross :
    reads (step (put [0xB1, 0x20] { launch 0x0200 [(0x0020, 0xF0), (0x0021, 0x08), (0x0910, 0x11)] with y := 0x20 })) 
      (fun t => (t.a, t.y, t.p, t.pc, t.cyc)) =
      some (0x11, 0x20, 0x20, 0x0202, 6) := by
  decide

/-- LS12, LDA ($20),Y. -/
theorem test_lda_indy_same_page_pays_nothing :
    reads (step (put [0xB1, 0x20] { launch 0x0200 [(0x0020, 0xF0), (0x0021, 0x08)] with y := 0x05 })) 
      (fun t => (t.y, t.p, t.pc, t.cyc)) =
      some (0x05, 0x22, 0x0202, 5) := by
  decide

/-- LS14, LDX $F0,Y. -/
theorem test_ldx_zpy_wraps_in_page_zero :
    reads (step (put [0xB6, 0xF0] { launch 0x0200 [(0x0010, 0x09)] with y := 0x20 })) 
      (fun t => (t.x, t.y, t.p, t.pc, t.cyc)) =
      some (0x09, 0x20, 0x20, 0x0202, 4) := by
  decide

/-- LS17, LDY $1200,X. -/
theorem test_ldy_absx_same_page_pays_nothing :
    reads (step (put [0xBC, 0x00, 0x12] { launch 0x0200 [(0x12FF, 0x21)] with x := 0xFF })) 
      (fun t => (t.x, t.y, t.p, t.pc, t.cyc)) =
      some (0xFF, 0x21, 0x20, 0x0203, 4) := by
  decide

/-- LS18, STA $10. -/
theorem test_sta_zp_keeps_the_flags :
    reads (step (put [0x85, 0x10] { launch 0x0200 [] with p := 0xA0 })) 
      (fun t => (t.a, t.p, t.pc, t.cyc, t.peek 0x0010)) =
      some (0x00, 0xA0, 0x0202, 3, 0x00) := by
  decide

/-- LS19, STA $12F0,X. -/
theorem test_sta_absx_never_pays_for_a_page_cross :
    reads (step (put [0x9D, 0xF0, 0x12] { launch 0x0200 [] with a := 0x42, x := 0x20 })) 
      (fun t => (t.a, t.x, t.p, t.pc, t.cyc, t.peek 0x1310)) =
      some (0x42, 0x20, 0x20, 0x0203, 5, 0x42) := by
  decide

/-- LS20, STA ($20),Y. -/
theorem test_sta_indy_never_pays_for_a_page_cross :
    reads (step (put [0x91, 0x20] { launch 0x0200 [(0x0020, 0xF0), (0x0021, 0x08)] with a := 0x42, y := 0x20 })) 
      (fun t => (t.a, t.y, t.p, t.pc, t.cyc, t.peek 0x0910)) =
      some (0x42, 0x20, 0x20, 0x0202, 6, 0x42) := by
  decide

/-- LS22, STX $F0,Y. -/
theorem test_stx_zpy_wraps_in_page_zero :
    reads (step (put [0x96, 0xF0] { launch 0x0200 [] with x := 0x07, y := 0x20 })) 
      (fun t => (t.x, t.y, t.p, t.pc, t.cyc, t.peek 0x0010)) =
      some (0x07, 0x20, 0x20, 0x0202, 4, 0x07) := by
  decide

/-- LS23, STY $1234. -/
theorem test_sty_abs_keeps_the_flags :
    reads (step (put [0x8C, 0x34, 0x12] { launch 0x0200 [] with y := 0x80 })) 
      (fun t => (t.y, t.p, t.pc, t.cyc, t.peek 0x1234)) =
      some (0x80, 0x20, 0x0203, 4, 0x80) := by
  decide

/-- LS24, TAX. -/
theorem test_tax_sets_n :
    reads (step (put [0xAA] { launch 0x0200 [] with a := 0x80 })) 
      (fun t => (t.a, t.x, t.p, t.pc, t.cyc)) =
      some (0x80, 0x80, 0xA0, 0x0201, 2) := by
  decide

/-- LS25, TAY. -/
theorem test_tay_sets_z :
    reads (step (put [0xA8] { launch 0x0200 [] with y := 0x05 })) 
      (fun t => (t.a, t.y, t.p, t.pc, t.cyc)) =
      some (0x00, 0x00, 0x22, 0x0201, 2) := by
  decide

/-- LS26, TXA. -/
theorem test_txa_copies_x :
    reads (step (put [0x8A] { launch 0x0200 [] with x := 0x7F })) 
      (fun t => (t.a, t.x, t.p, t.pc, t.cyc)) =
      some (0x7F, 0x7F, 0x20, 0x0201, 2) := by
  decide

/-- LS27, TYA. -/
theorem test_tya_copies_y :
    reads (step (put [0x98] { launch 0x0200 [] with y := 0xFF })) 
      (fun t => (t.a, t.y, t.p, t.pc, t.cyc)) =
      some (0xFF, 0xFF, 0xA0, 0x0201, 2) := by
  decide

/-- LS29, TSX. -/
theorem test_tsx_sets_z :
    reads (step (put [0xBA] { launch 0x0200 [] with x := 0x11, sp := 0x00 })) 
      (fun t => (t.x, t.sp, t.p, t.pc, t.cyc)) =
      some (0x00, 0x00, 0x22, 0x0201, 2) := by
  decide

/-- LS30, TXS. -/
theorem test_txs_keeps_the_flags :
    reads (step (put [0x9A] { launch 0x0200 [] with p := 0xA0 })) 
      (fun t => (t.x, t.sp, t.p, t.pc, t.cyc)) =
      some (0x00, 0x00, 0xA0, 0x0201, 2) := by
  decide

/-- AL2, ADC #$50. -/
theorem test_adc_imm_overflows :
    reads (step (put [0x69, 0x50] { launch 0x0200 [] with a := 0x50 })) 
      (fun t => (t.a, t.p, t.pc, t.cyc)) =
      some (0xA0, 0xE0, 0x0202, 2) := by
  decide

/-- AL16, ADC #$FF (decimal, invalid BCD). -/
theorem test_adc_imm_decimal_takes_invalid_bcd :
    reads (step (put [0x69, 0xFF] { launch 0x0200 [] with a := 0xFF, p := 0x29 })) 
      (fun t => (t.a, t.p, t.pc, t.cyc)) =
      some (0x65, 0x69, 0x0202, 2) := by
  decide

/-- AL9, ADC $12F0,X. -/
theorem test_adc_absx_pays_for_a_page_cross :
    reads (step (put [0x7D, 0xF0, 0x12] { launch 0x0200 [(0x1310, 0x02)] with a := 0x01, x := 0x20 })) 
      (fun t => (t.a, t.x, t.p, t.pc, t.cyc)) =
      some (0x03, 0x20, 0x20, 0x0203, 5) := by
  decide

/-- AL20, SBC #$01. -/
theorem test_sbc_imm_overflows :
    reads (step (put [0xE9, 0x01] { launch 0x0200 [] with a := 0x80, p := 0x21 })) 
      (fun t => (t.a, t.p, t.pc, t.cyc)) =
      some (0x7F, 0x61, 0x0202, 2) := by
  decide

/-- AL30, SBC #$0F (decimal, invalid BCD). -/
theorem test_sbc_imm_decimal_takes_invalid_bcd :
    reads (step (put [0xE9, 0x0F] { launch 0x0200 [] with a := 0x0A, p := 0x29 })) 
      (fun t => (t.a, t.p, t.pc, t.cyc)) =
      some (0x95, 0xA8, 0x0202, 2) := by
  decide

/-- AL31, AND #$0F. -/
theorem test_and_imm_sets_z :
    reads (step (put [0x29, 0x0F] { launch 0x0200 [] with a := 0xF0 })) 
      (fun t => (t.a, t.p, t.pc, t.cyc)) =
      some (0x00, 0x22, 0x0202, 2) := by
  decide

/-- AL36, ORA ($20),Y. -/
theorem test_ora_indy_pays_for_a_page_cross :
    reads (step (put [0x11, 0x20] { launch 0x0200 [(0x0020, 0x01), (0x0021, 0x03), (0x0400, 0x10)] with a := 0x01, y := 0xFF })) 
      (fun t => (t.a, t.y, t.p, t.pc, t.cyc)) =
      some (0x11, 0xFF, 0x20, 0x0202, 6) := by
  decide

/-- AL39, EOR $1234. -/
theorem test_eor_abs_sets_n :
    reads (step (put [0x4D, 0x34, 0x12] { launch 0x0200 [(0x1234, 0x55)] with a := 0xAA })) 
      (fun t => (t.a, t.p, t.pc, t.cyc)) =
      some (0xFF, 0xA0, 0x0203, 4) := by
  decide

/-- AL40, BIT $10. -/
theorem test_bit_zp_takes_n_and_v_from_memory :
    reads (step (put [0x24, 0x10] { launch 0x0200 [(0x0010, 0xC0)] with a := 0x01 })) 
      (fun t => (t.a, t.p, t.pc, t.cyc)) =
      some (0x01, 0xE2, 0x0202, 3) := by
  decide

/-- AL41, BIT $10. -/
theorem test_bit_zp_clears_n_and_v :
    reads (step (put [0x24, 0x10] { launch 0x0200 [(0x0010, 0x01)] with a := 0xFF, p := 0xE2 })) 
      (fun t => (t.a, t.p, t.pc, t.cyc)) =
      some (0xFF, 0x20, 0x0202, 3) := by
  decide

/-- AL46, CMP #$FF. -/
theorem test_cmp_imm_below_keeps_v :
    reads (step (put [0xC9, 0xFF] { launch 0x0200 [] with p := 0x60 })) 
      (fun t => (t.a, t.p, t.pc, t.cyc)) =
      some (0x00, 0x60, 0x0202, 2) := by
  decide

/-- AL47, CMP #$46 (decimal flag set: still binary). -/
theorem test_cmp_imm_is_binary_in_decimal_mode :
    reads (step (put [0xC9, 0x46] { launch 0x0200 [] with a := 0x58, p := 0x28 })) 
      (fun t => (t.a, t.p, t.pc, t.cyc)) =
      some (0x58, 0x29, 0x0202, 2) := by
  decide

/-- AL49, CPX #$10. -/
theorem test_cpx_imm_borrows :
    reads (step (put [0xE0, 0x10] { launch 0x0200 [] with x := 0x0F })) 
      (fun t => (t.x, t.p, t.pc, t.cyc)) =
      some (0x0F, 0xA0, 0x0202, 2) := by
  decide

/-- AL52, CPY $1234. -/
theorem test_cpy_abs_equal :
    reads (step (put [0xCC, 0x34, 0x12] (launch 0x0200 []))) 
      (fun t => (t.y, t.p, t.pc, t.cyc)) =
      some (0x00, 0x23, 0x0203, 4) := by
  decide

/-- SH3, ASL A. -/
theorem test_asl_acc_drops_the_old_carry :
    reads (step (put [0x0A] { launch 0x0200 [] with a := 0x40, p := 0x21 })) 
      (fun t => (t.a, t.p, t.pc, t.cyc)) =
      some (0x80, 0xA0, 0x0201, 2) := by
  decide

/-- SH4, ASL $10. -/
theorem test_asl_zp_keeps_a :
    reads (step (put [0x06, 0x10] { launch 0x0200 [(0x0010, 0x41)] with a := 0x55 })) 
      (fun t => (t.a, t.p, t.pc, t.cyc, t.peek 0x0010)) =
      some (0x55, 0xA0, 0x0202, 5, 0x82) := by
  decide

/-- SH6, LSR A. -/
theorem test_lsr_acc_clears_n :
    reads (step (put [0x4A] { launch 0x0200 [] with a := 0x01, p := 0xA0 })) 
      (fun t => (t.a, t.p, t.pc, t.cyc)) =
      some (0x00, 0x23, 0x0201, 2) := by
  decide

/-- SH9, ROL A. -/
theorem test_rol_acc_takes_the_carry :
    reads (step (put [0x2A] { launch 0x0200 [] with a := 0x40, p := 0x21 })) 
      (fun t => (t.a, t.p, t.pc, t.cyc)) =
      some (0x81, 0xA0, 0x0201, 2) := by
  decide

/-- SH11, ROL $10,X. -/
theorem test_rol_zpx_wraps_in_page_zero :
    reads (step (put [0x36, 0x10] { launch 0x0200 [] with x := 0xF8, p := 0x21 })) 
      (fun t => (t.x, t.p, t.pc, t.cyc, t.peek 0x0008)) =
      some (0xF8, 0x20, 0x0202, 6, 0x01) := by
  decide

/-- SH12, ROR A. -/
theorem test_ror_acc_takes_the_carry :
    reads (step (put [0x6A] { launch 0x0200 [] with a := 0x01, p := 0x21 })) 
      (fun t => (t.a, t.p, t.pc, t.cyc)) =
      some (0x80, 0xA1, 0x0201, 2) := by
  decide

/-- SH14, ROR $1234. -/
theorem test_ror_abs_takes_the_carry :
    reads (step (put [0x6E, 0x34, 0x12] { launch 0x0200 [] with p := 0x21 })) 
      (fun t => (t.p, t.pc, t.cyc, t.peek 0x1234)) =
      some (0xA0, 0x0203, 6, 0x80) := by
  decide

/-- SH15, INC $10. -/
theorem test_inc_zp_keeps_c :
    reads (step (put [0xE6, 0x10] { launch 0x0200 [(0x0010, 0xFF)] with p := 0x21 })) 
      (fun t => (t.p, t.pc, t.cyc, t.peek 0x0010)) =
      some (0x23, 0x0202, 5, 0x00) := by
  decide

/-- SH17, INC $12F0,X. -/
theorem test_inc_absx_pays_no_page_cross :
    reads (step (put [0xFE, 0xF0, 0x12] { launch 0x0200 [] with x := 0x20 })) 
      (fun t => (t.x, t.p, t.pc, t.cyc, t.peek 0x1310)) =
      some (0x20, 0x20, 0x0203, 7, 0x01) := by
  decide

/-- SH18, DEC $10. -/
theorem test_dec_zp_wraps :
    reads (step (put [0xC6, 0x10] (launch 0x0200 []))) 
      (fun t => (t.p, t.pc, t.cyc, t.peek 0x0010)) =
      some (0xA0, 0x0202, 5, 0xFF) := by
  decide

/-- SH20, DEC $10,X. -/
theorem test_dec_zpx_wraps_in_page_zero :
    reads (step (put [0xD6, 0x10] { launch 0x0200 [(0x000F, 0x80)] with x := 0xFF })) 
      (fun t => (t.x, t.p, t.pc, t.cyc, t.peek 0x000F)) =
      some (0xFF, 0x20, 0x0202, 6, 0x7F) := by
  decide

/-- SH21, INX. -/
theorem test_inx_keeps_c :
    reads (step (put [0xE8] { launch 0x0200 [] with x := 0xFF, p := 0x21 })) 
      (fun t => (t.x, t.p, t.pc, t.cyc)) =
      some (0x00, 0x23, 0x0201, 2) := by
  decide

/-- SH23, INY. -/
theorem test_iny_wraps :
    reads (step (put [0xC8] { launch 0x0200 [] with y := 0xFF })) 
      (fun t => (t.y, t.p, t.pc, t.cyc)) =
      some (0x00, 0x22, 0x0201, 2) := by
  decide

/-- SH25, DEX. -/
theorem test_dex_wraps :
    reads (step (put [0xCA] (launch 0x0200 []))) 
      (fun t => (t.x, t.p, t.pc, t.cyc)) =
      some (0xFF, 0xA0, 0x0201, 2) := by
  decide

/-- SH27, DEY. -/
theorem test_dey_wraps :
    reads (step (put [0x88] (launch 0x0200 []))) 
      (fun t => (t.y, t.p, t.pc, t.cyc)) =
      some (0xFF, 0xA0, 0x0201, 2) := by
  decide

/-- BR2, BCC +4 (not taken). -/
theorem test_bcc_not_taken :
    reads (step (put [0x90, 0x04] { launch 0x0200 [] with p := 0x21 })) 
      (fun t => (t.p, t.pc, t.cyc)) =
      some (0x21, 0x0202, 2) := by
  decide

/-- BR3, BCS -4 (taken, to another page). -/
theorem test_bcs_backwards_into_another_page :
    reads (step (put [0xB0, 0xFC] { launch 0x0200 [] with p := 0x21 })) 
      (fun t => (t.p, t.pc, t.cyc)) =
      some (0x21, 0x01FE, 4) := by
  decide

/-- BR4, BEQ +0 (taken, offset 0). -/
theorem test_beq_offset_zero :
    reads (step (put [0xF0, 0x00] { launch 0x0200 [] with p := 0x22 })) 
      (fun t => (t.p, t.pc, t.cyc)) =
      some (0x22, 0x0202, 3) := by
  decide

/-- BR8, BMI +127 (taken). -/
theorem test_bmi_longest_forward :
    reads (step (put [0x30, 0x7F] { launch 0x0200 [] with p := 0xA0 })) 
      (fun t => (t.p, t.pc, t.cyc)) =
      some (0xA0, 0x0281, 3) := by
  decide

/-- BR10, BPL -128 (taken). -/
theorem test_bpl_longest_backward :
    reads (step (put [0x10, 0x80] (launch 0x0200 []))) 
      (fun t => (t.p, t.pc, t.cyc)) =
      some (0x20, 0x0182, 4) := by
  decide

/-- BR11, BVC +16 (taken). -/
theorem test_bvc_taken :
    reads (step (put [0x50, 0x10] (launch 0x0200 []))) 
      (fun t => (t.p, t.pc, t.cyc)) =
      some (0x20, 0x0212, 3) := by
  decide

/-- BR12, BVS +16 (taken). -/
theorem test_bvs_taken :
    reads (step (put [0x70, 0x10] { launch 0x0200 [] with p := 0x60 })) 
      (fun t => (t.p, t.pc, t.cyc)) =
      some (0x60, 0x0212, 3) := by
  decide

/-- BR16, BNE +16, opcode at 0x10FE. -/
theorem test_bne_page_test_is_against_the_next_instruction :
    reads (step (put [0xD0, 0x10] (launch 0x10FE []))) 
      (fun t => (t.p, t.pc, t.cyc)) =
      some (0x20, 0x1110, 3) := by
  decide

/-- BR17, BNE -16, opcode at 0x10FE. -/
theorem test_bne_back_over_the_page_boundary :
    reads (step (put [0xD0, 0xF0] (launch 0x10FE []))) 
      (fun t => (t.p, t.pc, t.cyc)) =
      some (0x20, 0x10F0, 4) := by
  decide

/-- BR18, BPL -128, opcode at 0x0000. -/
theorem test_bpl_wraps_below_0 :
    reads (step (put [0x10, 0x80] (launch 0x0000 []))) 
      (fun t => (t.p, t.pc, t.cyc)) =
      some (0x20, 0xFF82, 4) := by
  decide

/-- BR19, BCC +0, opcode at 0xFFFE. -/
theorem test_bcc_wraps_past_the_top :
    reads (step (put [0x90, 0x00] (launch 0xFFFE []))) 
      (fun t => (t.p, t.pc, t.cyc)) =
      some (0x20, 0x0000, 3) := by
  decide

/-- BR20, JMP $1234. -/
theorem test_jmp_abs :
    reads (step (put [0x4C, 0x34, 0x12] (launch 0x0200 []))) 
      (fun t => (t.p, t.pc, t.cyc)) =
      some (0x20, 0x1234, 3) := by
  decide

/-- BR22, JMP ($0300). -/
theorem test_jmp_ind :
    reads (step (put [0x6C, 0x00, 0x03] (launch 0x0200 [(0x0300, 0x34), (0x0301, 0x12)]))) 
      (fun t => (t.p, t.pc, t.cyc)) =
      some (0x20, 0x1234, 5) := by
  decide

/-- BR23, JMP ($02FF). -/
theorem test_jmp_ind_pointer_crosses_a_page :
    reads (step (put [0x6C, 0xFF, 0x02] (launch 0x0400 [(0x0200, 0x6C), (0x02FF, 0x78), (0x0300, 0x56)]))) 
      (fun t => (t.p, t.pc, t.cyc)) =
      some (0x20, 0x5678, 5) := by
  decide

/-- BR25, JSR $0010 (JSR_PUSH_OFFSET = 3). -/
theorem test_jsr_pushes_pc_plus_3_with_offset_3 :
    reads (step (put [0x20, 0x10, 0x00] { launch 0x0003 [] with cfg := offsetThree })) 
      (fun t => (t.sp, t.p, t.pc, t.cyc, t.peek 0x01FF, t.peek 0x01FE)) =
      some (0xFD, 0x20, 0x0010, 6, 0x00, 0x06) := by
  decide

/-- BR26, JSR $1234 with SP = 0x00 (offset 2). -/
theorem test_jsr_stack_wraps :
    reads (step (put [0x20, 0x34, 0x12] { launch 0x02FE [] with sp := 0x00 })) 
      (fun t => (t.sp, t.p, t.pc, t.cyc, t.peek 0x0100, t.peek 0x01FF)) =
      some (0xFE, 0x20, 0x1234, 6, 0x03, 0x00) := by
  decide

/-- BR28, RTS (offset 2). -/
theorem test_rts_adds_1_with_offset_2 :
    reads (step (put [0x60] { launch 0x0200 [(0x01FE, 0x05)] with sp := 0xFD })) 
      (fun t => (t.sp, t.p, t.pc, t.cyc)) =
      some (0xFF, 0x20, 0x0006, 6) := by
  decide

/-- BR29, RTS (offset 3). -/
theorem test_rts_adds_0_with_offset_3 :
    reads (step (put [0x60] { launch 0x0200 [(0x01FE, 0x06)] with sp := 0xFD, cfg := offsetThree })) 
      (fun t => (t.sp, t.p, t.pc, t.cyc)) =
      some (0xFF, 0x20, 0x0006, 6) := by
  decide

/-- BR31, RTI. -/
theorem test_rti_forces_bit_5 :
    reads (step (put [0x40] { launch 0x0200 [(0x01FD, 0xC3), (0x01FE, 0x34), (0x01FF, 0x12)] with sp := 0xFC })) 
      (fun t => (t.sp, t.p, t.pc, t.cyc)) =
      some (0xFF, 0xE3, 0x1234, 6) := by
  decide

/-- BR32, RTI (popped status 0x00). -/
theorem test_rti_clears_the_flags :
    reads (step (put [0x40] { launch 0x0200 [(0x01FF, 0x80)] with sp := 0xFC, p := 0xFF })) 
      (fun t => (t.sp, t.p, t.pc, t.cyc)) =
      some (0xFF, 0x20, 0x8000, 6) := by
  decide

/-- ST2, PHA with SP = 0x00. -/
theorem test_pha_wraps :
    reads (step (put [0x48] { launch 0x0200 [] with a := 0x99, sp := 0x00 })) 
      (fun t => (t.a, t.sp, t.p, t.pc, t.cyc, t.peek 0x0100)) =
      some (0x99, 0xFF, 0x20, 0x0201, 3, 0x99) := by
  decide

/-- ST3, PHP after reset. -/
theorem test_php_after_reset_pushes_0x20 :
    reads (step (put [0x08] (launch 0x0200 []))) 
      (fun t => (t.sp, t.p, t.pc, t.cyc, t.peek 0x01FF)) =
      some (0xFE, 0x20, 0x0201, 3, 0x20) := by
  decide

/-- ST4, PHP. -/
theorem test_php_pushes_p_as_stored :
    reads (step (put [0x08] { launch 0x0200 [] with p := 0xFF })) 
      (fun t => (t.sp, t.p, t.pc, t.cyc, t.peek 0x01FF)) =
      some (0xFE, 0xFF, 0x0201, 3, 0xFF) := by
  decide

/-- ST5, PLA. -/
theorem test_pla_sets_z :
    reads (step (put [0x68] { launch 0x0200 [] with a := 0x55, sp := 0xFE })) 
      (fun t => (t.a, t.sp, t.p, t.pc, t.cyc)) =
      some (0x00, 0xFF, 0x22, 0x0201, 4) := by
  decide

/-- ST6, PLA with SP = 0xFF. -/
theorem test_pla_wraps :
    reads (step (put [0x68] (launch 0x0200 [(0x0100, 0x80)]))) 
      (fun t => (t.a, t.sp, t.p, t.pc, t.cyc)) =
      some (0x80, 0x00, 0xA0, 0x0201, 4) := by
  decide

/-- ST8, PLP (pulled 0x00). -/
theorem test_plp_forces_bit_5 :
    reads (step (put [0x28] { launch 0x0200 [] with sp := 0xFE, p := 0xFF })) 
      (fun t => (t.sp, t.p, t.pc, t.cyc)) =
      some (0xFF, 0x20, 0x0201, 4) := by
  decide

/-- ST9, PLP (pulled 0xDF). -/
theorem test_plp_loads_the_break_bit :
    reads (step (put [0x28] { launch 0x0200 [(0x01FF, 0xDF)] with sp := 0xFE })) 
      (fun t => (t.sp, t.p, t.pc, t.cyc)) =
      some (0xFF, 0xFF, 0x0201, 4) := by
  decide

/-- ST11, SEC. -/
theorem test_sec :
    reads (step (put [0x38] (launch 0x0200 []))) 
      (fun t => (t.p, t.pc, t.cyc)) =
      some (0x21, 0x0201, 2) := by
  decide

/-- ST12, CLI. -/
theorem test_cli :
    reads (step (put [0x58] { launch 0x0200 [] with p := 0x24 })) 
      (fun t => (t.p, t.pc, t.cyc)) =
      some (0x20, 0x0201, 2) := by
  decide

/-- ST13, SEI. -/
theorem test_sei :
    reads (step (put [0x78] (launch 0x0200 []))) 
      (fun t => (t.p, t.pc, t.cyc)) =
      some (0x24, 0x0201, 2) := by
  decide

/-- ST14, CLD. -/
theorem test_cld :
    reads (step (put [0xD8] { launch 0x0200 [] with p := 0x28 })) 
      (fun t => (t.p, t.pc, t.cyc)) =
      some (0x20, 0x0201, 2) := by
  decide

/-- ST15, SED. -/
theorem test_sed :
    reads (step (put [0xF8] (launch 0x0200 []))) 
      (fun t => (t.p, t.pc, t.cyc)) =
      some (0x28, 0x0201, 2) := by
  decide

/-- ST16, CLV. -/
theorem test_clv :
    reads (step (put [0xB8] { launch 0x0200 [] with p := 0x60 })) 
      (fun t => (t.p, t.pc, t.cyc)) =
      some (0x20, 0x0201, 2) := by
  decide

/-- ST17, CLC (all flags set). -/
theorem test_clc_keeps_the_others :
    reads (step (put [0x18] { launch 0x0200 [] with p := 0xFF })) 
      (fun t => (t.p, t.pc, t.cyc)) =
      some (0xFE, 0x0201, 2) := by
  decide

/-- ST18, NOP. -/
theorem test_nop_keeps_everything :
    reads (step (put [0xEA] { launch 0x0200 [] with a := 0x01, x := 0x02, y := 0x03, p := 0xE3 })) 
      (fun t => (t.a, t.x, t.y, t.p, t.pc, t.cyc)) =
      some (0x01, 0x02, 0x03, 0xE3, 0x0201, 2) := by
  decide

/-- ST20, BRK (all flags set). -/
theorem test_brk_is_a_stub :
    reads (step (put [0x00] { launch 0x0200 [] with sp := 0x80, p := 0xEB })) 
      (fun t => (t.sp, t.p, t.pc, t.cyc)) =
      some (0x80, 0xEB, 0x0201, 7) := by
  decide

/-! ### Failures: the outcome, and nothing changed -/

/-- FT1. -/
theorem test_undefined_0xff_changes_nothing :
    perform .step { put [0xFF] (launch 0x0200 []) with a := 0x01, sp := 0x80, p := 0xE3 } =
      ({ put [0xFF] (launch 0x0200 []) with a := 0x01, sp := 0x80, p := 0xE3 }, .unknownOpcode 0xFF) := by
  decide

/-- FT5: 0xEB is no second SBC. -/
theorem test_undefined_0xeb_is_no_sbc :
    (perform .step { put [0xEB, 0x01] (launch 0x0200 []) with a := 0x10, p := 0x21 }).2 = .unknownOpcode 0xEB := by
  decide

/-- FT6. -/
theorem test_lda_beyond_n :
    (perform .step (put [0xAD, 0x00, 0x80] { launch 0x0200 [] with cfg := short 0x8000 })).2 = .busError 0x8000 := by
  decide

/-- FT7: the first push would fit, the second does not, and the first leaves no trace. -/
theorem test_jsr_whose_second_push_fails_writes_nothing :
    perform .step (put [0x20, 0x00, 0x03] { launch 0x0010 [(0x0100, 0x77)] with cfg := short 0x0180, sp := 0x00 }) =
      (put [0x20, 0x00, 0x03] { launch 0x0010 [(0x0100, 0x77)] with cfg := short 0x0180, sp := 0x00 },
        .busError 0x01FF) := by
  decide

/-- FT8: the target is not accessed by JSR, the next fetch fails. -/
theorem test_jsr_to_an_absent_target_fails_at_the_next_fetch :
    (perform .step
      (perform .step (put [0x20, 0x00, 0x03] { launch 0x0010 [] with cfg := short 0x0180, sp := 0x7F })).1).2 =
      .busError 0x0300 := by
  decide

/-- FT10: the operand byte is out of range. -/
theorem test_operand_fetch_beyond_n :
    (perform .step (put [0xA9, 0x01] { launch 0x7FFF [] with cfg := short 0x8000 })).2 = .busError 0x8000 := by
  decide

/-! ### BUS operations, on small ranges -/

/-- What the host reads at an address. -/
def hostRead (s : State) (a : Nat) : Reply := (perform (.read a) s).2

/-- BU1, BU2 with 8 addresses to a range: aliasing in both directions, and the hidden cell reappears. -/
def mirrored : State := (perform (.mirror 0x0000 0x0007 0x0800 0x0807) (launch 0x0000 [(0x0800, 0xEE)])).1

theorem test_write_is_seen_through_the_mirror : hostRead (perform (.write 0x0000 0x42) mirrored).1 0x0800 = .okBytes [0x42] := by
  decide

theorem test_write_through_the_mirror_is_seen : hostRead (perform (.write 0x0807 0x99) mirrored).1 0x0007 = .okBytes [0x99] := by
  decide

theorem test_clear_mirror_brings_the_hidden_cell_back :
    hostRead (perform (.write 0x0000 0x43) (perform (.clearMirror 0x0800 0x0807) mirrored).1).1 0x0800 = .okBytes [0xEE] := by
  decide

/-- BU3, BU4, BU5, BU11. -/
theorem test_bad_ranges_change_nothing :
    perform (.mirror 0x0000 0x00FF 0x0100 0x01FE) State.reset = (State.reset, .rangeError) ∧
    perform (.mirror 0x0010 0x000F 0x0020 0x001F) State.reset = (State.reset, .rangeError) ∧
    perform (.mirror 0x0000 0x00FF 0xFF80 0x1007F) State.reset = (State.reset, .rangeError) ∧
    perform (.clearRange 0x0010 0x000F) State.reset = (State.reset, .rangeError) ∧
    perform (.clearMirror 0x0010 0x000F) State.reset = (State.reset, .rangeError) := by
  decide

/-- BU6: a mirror of a mirror copies the references. -/
theorem test_mirror_copies_references :
    (perform (.mirror 0x0100 0x0103 0x0200 0x0203) (perform (.mirror 0x0000 0x0003 0x0100 0x0103) State.reset).1).1.ref 0x0203 =
      0x0003 := by
  decide

/-- BU8: overlapping ranges, ascending. -/
theorem test_overlapping_mirror_goes_upwards :
    (fun s => (s.ref 1, s.ref 2, s.ref 3, s.ref 4)) (perform (.mirror 0 2 1 3) State.reset).1 = (0, 0, 0, 4) := by
  decide

/-- BU9: CLEAR_RANGE goes through the alias table, the hidden cell stays. -/
theorem test_clear_range_goes_through_the_mirror :
    (fun s => (s.cells.cell 0x0005, s.cells.cell 0x0105))
      (perform (.clearRange 0x0100 0x0107)
        (perform (.mirror 0x0000 0x0007 0x0100 0x0107) (launch 0x0000 [(0x0005, 0x09), (0x0105, 0x33)])).1).1 =
      (0x00, 0x33) := by
  decide

/-- BU10: no reduction mod N. -/
theorem test_addresses_are_not_reduced :
    hostRead { State.reset with cfg := short 0x4000 } 0x4000 = .rangeError ∧
    hostRead { State.reset with cfg := short 0x4000 } 0x3FFF = .okBytes [0x00] := by
  decide

/-- BU12, on 32 cells. -/
theorem test_clear_zeroes_and_keeps_the_aliases :
    perform .clear { State.reset with cfg := short 32, cells := [(0x12, 0xAB)], refs := [(0x03, 0x04)] } =
      ({ State.reset with cfg := short 32, refs := [(0x03, 0x04)] }, .ok) := by
  decide

/-- Source example S1. -/
theorem test_reset_keeps_the_bus :
    (perform .reset { launch 0x1234 [(0x0005, 0x09)] with a := 0x01, refs := [(0x0800, 0)], cyc := 9 }).1 =
      { State.reset with cells := [(0x0005, 0x09)], refs := [(0x0800, 0)] } := by
  decide


/-! ### Witnesses: for every statement with hypotheses, states and operands that meet them, clause by clause -/

/-- LDA #$10 at 0x0200 and some data, on the full BUS. -/
def full : State := { launch 0x0200 [(0x0010, 0x80), (0x0011, 0x03), (0x0100, 0x34), (0x01FE, 0x12), (0x01FF, 0x56), (0x0200, 0xA9),
  (0x0201, 0x10), (0x0380, 0x99)] with a := 0x42, x := 0xFF, y := 0x80 }

/-- One page of addresses and no more: the stack page is absent. -/
def onePage : State := { launch 0x0010 [(0x0010, 0xAD)] with cfg := short 0x0100, x := 0x80, y := 0x01 }

theorem test_witness_EncodeOfDecodedIsTheBytes : decode [0xAD, 0x34, 0x12, 0xFF] = .ok (.ldaAbs 0x1234, [0xFF]) := rfl

theorem test_witness_UndefinedOpcodesAreReportedAndChangeNothing :
    (0x02 ∈ Forms.undefinedOpcodes ∧ memRead 0x0200 (launch 0x0200 [(0x0200, 0x02)]) = .ok 0x02) ∧
    (0xFF ∈ Forms.undefinedOpcodes ∧ memRead 0x0200 (launch 0x0200 [(0x0200, 0xFF)]) = .ok 0xFF) ∧
    (0x00 ∉ Forms.undefinedOpcodes ∧ memRead 0x0200 (launch 0x0200 []) = .ok 0x00) ∧
    (0xFE ∉ Forms.undefinedOpcodes ∧ memRead 0x0200 (launch 0x0200 [(0x0200, 0xFE)]) = .ok 0xFE) :=
  ⟨⟨by decide, rfl⟩, ⟨by decide, rfl⟩, ⟨by decide, rfl⟩, by decide, rfl⟩

/-- The instruction's second byte lies at 0x0000: PC wraps. -/
theorem test_witness_StepRunsTheDecodedInstruction :
    decode [0xA9, 0x10] = .ok (.ldaImm 0x10, []) ∧
    Forms.HoldsBytes (launch 0xFFFF [(0x0000, 0x10), (0xFFFF, 0xA9)]) 0xFFFF [0xA9, 0x10] ∧
    (launch 0xFFFF [(0x0000, 0x10), (0xFFFF, 0xA9)]).busRead (0xFFFF : Word).toNat = some 0xA9 ∧
    (short 0x0200).busSize ≤ full.pc.toNat := by
  refine ⟨rfl, ?_, by decide, by decide⟩
  rintro (_ | _ | k) hk
  · rfl
  · rfl
  · simp at hk

/-- EXEC(op) with another byte at PC; an undefined op; an op whose operand byte is out of range; each kind of outcome. -/
theorem test_witness_ExecTakesItsOperandsAfterPc :
    (decode [0xA2, 0x10] = .ok (.ldxImm 0x10, []) ∧ Forms.HoldsBytes full (full.pc + 1) [0x10] ∧
      ∃ s', execOpcode 0xA2 full = .next s') ∧
    (decode [0xFF] = .error (.undefinedOpcode 0xFF) ∧ execOpcode 0xFF full = .fault (.unknownOpcode 0xFF)) ∧
    execOpcode 0xA9 { full with cfg := short 0x0201 } = .fault (.busError 0x0201) := by
  refine ⟨⟨rfl, ?_, _, rfl⟩, ⟨rfl, rfl⟩, rfl⟩
  rintro (_ | k) hk
  · rfl
  · simp at hk

theorem test_witness_FirstFailingCheckIsReported :
    ({ full with cfg := short 0x0200 }.cfg.busSize ≤ full.pc.toNat) ∧
    (memRead 0x0200 (launch 0x0200 [(0x0200, 0x02)]) = .ok 0x02 ∧ 0x02 ∈ Forms.undefinedOpcodes) ∧
    (encode (.ldaImm 0x00) = [0xA9, 0x00] ∧ memRead full.pc { full with cfg := short 0x0201 } = .ok 0xA9 ∧
      (short 0x0201).busSize ≤ (full.pc + 1).toNat) ∧
    (encode (.ldaAbs 0x1234) = [0xAD, 0x34, 0x12] ∧
      memRead 0x00FF { onePage with pc := 0x00FF, cells := [(0x00FF, 0xAD)] } = .ok 0xAD ∧
      onePage.cfg.busSize ≤ ((0x00FF : Word) + 1).toNat) ∧
    (memRead 0x00FE { onePage with pc := 0x00FE, cells := [(0x00FE, 0xAD)] } = .ok 0xAD ∧
      ((0x00FE : Word) + 1).toNat < onePage.cfg.busSize ∧ onePage.cfg.busSize ≤ ((0x00FE : Word) + 2).toNat) ∧
    ((0x7F : Byte) + onePage.x = 0xFF ∧ (short 0xFF).busSize ≤ (0xFF : Byte).toNat) ∧
    ((0x7E : Byte) + onePage.x = 0xFE ∧ (0xFE : Byte).toNat < (short 0xFF).busSize ∧
      (short 0xFF).busSize ≤ ((0xFE : Byte) + 1).toNat) ∧
    (effAddr (.absolute 0x0100) onePage = .ok (0x0100, false) ∧ onePage.cfg.busSize ≤ (0x0100 : Word).toNat) :=
  ⟨by decide, ⟨rfl, by decide⟩, ⟨by decide, rfl, by decide⟩, ⟨by decide, rfl, by decide⟩, ⟨rfl, by decide⟩, by decide,
    by decide, rfl, by decide⟩

theorem test_witness_StepFaultsOnlyAsTheSpecSays :
    step (launch 0x0200 [(0x0200, 0xFF)]) = .fault (.unknownOpcode 0xFF) ∧
    step { onePage with pc := 0x00FF, cells := [(0x00FF, 0xAD)] } = .fault (.busError 0x0100) := ⟨rfl, rfl⟩

theorem test_witness_EveryInstructionCompletesOnTheFullBus :
    65536 ≤ full.cfg.busSize ∧ ∃ s', exec (.jsr 0x1234) full = .next s' := ⟨by decide, _, rfl⟩

/-- The pointers of both indirect modes at the wrap, 0xFF and 0x00. -/
theorem test_witness_EffectiveAddressOfEachMode :
    (full.busRead (((0x11 : Byte).toNat + full.x.toNat) % 256) = some 0x80 ∧
      full.busRead (((0x11 : Byte).toNat + full.x.toNat + 1) % 256) = some 0x03) ∧
    ((launch 0x0200 [(0x0000, 0x12), (0x00FF, 0x34)]).busRead (0xFF : Byte).toNat = some 0x34 ∧
      (launch 0x0200 [(0x0000, 0x12), (0x00FF, 0x34)]).busRead (((0xFF : Byte).toNat + 1) % 256) = some 0x12) := by
  decide

theorem test_witness_OperandReadIsTheByteAtItsAddress :
    (effAddr (.indirectY 0x10) full = .ok (0x0400, true) ∧ full.busRead (0x0400 : Word).toNat = some 0x00) ∧
    effAddr (.indirectY 0xFF) { onePage with cfg := short 0xFF } = .error (.busError 0x00FF) := ⟨⟨rfl, by decide⟩, rfl⟩

theorem test_witness_StatusByteWrites : Flag.n ≠ .z ∧ Flag.c ≠ .z ∧ Flag.c ≠ .n ∧ 7 < 8 := by decide

/-- SP = 0x00: a push wraps; SP = 0xFF: a pop wraps; with 256 cells there is no stack. -/
theorem test_witness_PushAndPopUseTheStackPage :
    Forms.pushSlot { full with sp := 0x00 } 0 < full.cfg.busSize ∧ Forms.pushSlot { full with sp := 0x00 } 0 = 0x0100 ∧
    Forms.pushSlot { full with sp := 0x00 } 1 = 0x01FF ∧
    onePage.cfg.busSize ≤ Forms.pushSlot onePage 0 ∧
    full.busRead (Forms.popSlot full 1) = some 0x34 ∧ Forms.popSlot full 1 = 0x0100 ∧
    onePage.cfg.busSize ≤ Forms.popSlot onePage 1 := by
  decide

theorem test_witness_LoadsSetRegisterZAndN :
    (Forms.LoadForm .a 0xB1 (.ldaIndY 0x10) (.mem (.indirectY 0x10)) ⟨2, 5, true⟩ ∧
      readSource (.mem (.indirectY 0x10)) full = .ok (0x00, true)) ∧
    (Forms.LoadForm .y 0xAC (.ldyAbs 0x0100) (.mem (.absolute 0x0100)) ⟨3, 4, false⟩ ∧
      readSource (.mem (.absolute 0x0100)) onePage = .error (.busError 0x0100)) := ⟨⟨.ldaIndY _, rfl⟩, .ldyAbs _, rfl⟩

theorem test_witness_StoresWriteTheEffectiveAddressOnly :
    Forms.StoreForm .a 0x9D (.staAbsX 0x00FF) (.absoluteX 0x00FF) ⟨3, 5, false⟩ ∧
    (effAddr (.absoluteX 0x00FF) full = .ok (0x01FE, true) ∧ (0x01FE : Word).toNat < full.cfg.busSize) ∧
    (effAddr (.absoluteX 0x00FF) { onePage with x := 0x01 } = .ok (0x0100, true) ∧
      onePage.cfg.busSize ≤ (0x0100 : Word).toNat) ∧
    (Forms.StoreForm .a 0x91 (.staIndY 0xFF) (.indirectY 0xFF) ⟨2, 6, false⟩ ∧
      effAddr (.indirectY 0xFF) { onePage with cfg := short 0xFF } = .error (.busError 0x00FF)) :=
  ⟨.staAbsX _, ⟨rfl, by decide⟩, ⟨rfl, by decide⟩, .staIndY _, rfl⟩

theorem test_witness_TransfersCopyRegisters : Forms.TransferForm .sp .x 0xBA .tsx := .tsx

theorem test_witness_AdcSumAndFlags :
    (Forms.AdcForm 0x71 (.adcIndY 0x10) (.mem (.indirectY 0x10)) ⟨2, 5, true⟩ ∧
      readSource (.mem (.indirectY 0x10)) full = .ok (0x00, true)) ∧
    (Forms.AdcForm 0x69 (.adcImm 0xFF) (.imm 0xFF) ⟨2, 2, false⟩ ∧ readSource (.imm 0xFF) full = .ok (0xFF, false)) ∧
    (Forms.AdcForm 0x6D (.adcAbs 0x0100) (.mem (.absolute 0x0100)) ⟨3, 4, false⟩ ∧
      readSource (.mem (.absolute 0x0100)) onePage = .error (.busError 0x0100)) :=
  ⟨⟨.adcIndY _, rfl⟩, ⟨.adcImm _, rfl⟩, .adcAbs _, rfl⟩

theorem test_witness_SbcDifferenceAndFlags :
    (Forms.SbcForm 0xE1 (.sbcIndX 0x11) (.mem (.indirectX 0x11)) ⟨2, 6, false⟩ ∧
      readSource (.mem (.indirectX 0x11)) full = .ok (0x99, false)) ∧
    (Forms.SbcForm 0xE9 (.sbcImm 0x00) (.imm 0x00) ⟨2, 2, false⟩ ∧ readSource (.imm 0x00) full = .ok (0x00, false)) ∧
    (Forms.SbcForm 0xED (.sbcAbs 0x0100) (.mem (.absolute 0x0100)) ⟨3, 4, false⟩ ∧
      readSource (.mem (.absolute 0x0100)) onePage = .error (.busError 0x0100)) :=
  ⟨⟨.sbcIndX _, rfl⟩, ⟨.sbcImm _, rfl⟩, .sbcAbs _, rfl⟩

theorem test_witness_LogicCombinesBitByBit :
    (Forms.LogicForm Bool.xor 0x5D (.eorAbsX 0x0111) (.mem (.absoluteX 0x0111)) ⟨3, 4, true⟩ ∧
      readSource (.mem (.absoluteX 0x0111)) full = .ok (0x00, true)) ∧
    (Forms.LogicForm Bool.and 0x2D (.andAbs 0x0100) (.mem (.absolute 0x0100)) ⟨3, 4, false⟩ ∧
      readSource (.mem (.absolute 0x0100)) onePage = .error (.busError 0x0100)) ∧
    Forms.LogicForm Bool.or 0x09 (.oraImm 0x80) (.imm 0x80) ⟨2, 2, false⟩ := ⟨⟨.eorAbsX _, rfl⟩, ⟨.andAbs _, rfl⟩, .oraImm _⟩

theorem test_witness_BitTestsMemoryBits :
    (Forms.BitForm 0x24 (.bitZp 0x10) (.mem (.zeroPage 0x10)) ⟨2, 3, false⟩ ∧
      readSource (.mem (.zeroPage 0x10)) full = .ok (0x80, false)) ∧
    (Forms.BitForm 0x2C (.bitAbs 0x0100) (.mem (.absolute 0x0100)) ⟨3, 4, false⟩ ∧
      readSource (.mem (.absolute 0x0100)) onePage = .error (.busError 0x0100)) := ⟨⟨.bitZp _, rfl⟩, .bitAbs _, rfl⟩

theorem test_witness_ComparesSetCarryZAndN :
    (Forms.CompareForm .a 0xD1 (.cmpIndY 0x10) (.mem (.indirectY 0x10)) ⟨2, 5, true⟩ ∧
      readSource (.mem (.indirectY 0x10)) full = .ok (0x00, true)) ∧
    (Forms.CompareForm .y 0xCC (.cpyAbs 0x0100) (.mem (.absolute 0x0100)) ⟨3, 4, false⟩ ∧
      readSource (.mem (.absolute 0x0100)) onePage = .error (.busError 0x0100)) := ⟨⟨.cmpIndY _, rfl⟩, .cpyAbs _, rfl⟩

theorem test_witness_ShiftsMoveBitsThroughCarry :
    Forms.ShiftForm .ror 0x6A .rorAcc .acc ⟨1, 2, false⟩ ∧
    (Forms.ShiftForm .asl 0x06 (.aslZp 0x10) (.mem (.zeroPage 0x10)) ⟨2, 5, false⟩ ∧
      effAddr (.zeroPage 0x10) full = .ok (0x0010, false) ∧ full.busRead (0x0010 : Word).toNat = some 0x80) ∧
    (Forms.ShiftForm .rol 0x2E (.rolAbs 0x0100) (.mem (.absolute 0x0100)) ⟨3, 6, false⟩ ∧
      effAddr (.absolute 0x0100) onePage = .ok (0x0100, false) ∧ onePage.cfg.busSize ≤ (0x0100 : Word).toNat) :=
  ⟨.rorAcc, ⟨.aslZp _, rfl, by decide⟩, .rolAbs _, rfl, by decide⟩

theorem test_witness_IncAndDecStepOneCell :
    (Forms.CellStepForm 255 0xD6 (.decZpX 0x11) (.zeroPageX 0x11) ⟨2, 6, false⟩ ∧
      effAddr (.zeroPageX 0x11) full = .ok (0x0010, false) ∧ full.busRead (0x0010 : Word).toNat = some 0x80) ∧
    (Forms.CellStepForm 1 0xEE (.incAbs 0x0100) (.absolute 0x0100) ⟨3, 6, false⟩ ∧
      effAddr (.absolute 0x0100) onePage = .ok (0x0100, false) ∧ onePage.cfg.busSize ≤ (0x0100 : Word).toNat) :=
  ⟨⟨.decZpX _, rfl, by decide⟩, .incAbs _, rfl, by decide⟩

theorem test_witness_IndexRegistersStepByOne : Forms.RegStepForm 255 .y 0x88 .dey := .dey

/-- A branch that is taken over a page, and one that is not taken. -/
theorem test_witness_BranchesGoOrFallThrough :
    (Forms.BranchForm .c false 0x90 (.bcc 0x80) 0x80 ∧ full.flag .c = false) ∧
    (Forms.BranchForm .z true 0xF0 (.beq 0x7F) 0x7F ∧ full.flag .z ≠ true) := ⟨⟨.bcc _, by decide⟩, .beq _, by decide⟩

/-- The pointer 0x00FF: both bytes there; neither; the second one absent. -/
theorem test_witness_JumpGoesToItsTarget :
    ((launch 0x0200 [(0x00FF, 0x78), (0x0100, 0x56)]).busRead (0x00FF : Word).toNat = some 0x78 ∧
      (launch 0x0200 [(0x00FF, 0x78), (0x0100, 0x56)]).busRead (((0x00FF : Word).toNat + 1) % 65536) = some 0x56) ∧
    onePage.cfg.busSize ≤ (0x0100 : Word).toNat ∧
    (0x00FF : Word).toNat < onePage.cfg.busSize ∧ onePage.cfg.busSize ≤ ((0x00FF : Word) + 1).toNat := by
  decide

/-- Both slots there, with SP = 0x00 between them; none; the first only (vector FT7). -/
theorem test_witness_JsrPushesTheReturnAddress :
    (Forms.pushSlot { full with sp := 0x00 } 0 < full.cfg.busSize ∧ Forms.pushSlot { full with sp := 0x00 } 1 < full.cfg.busSize) ∧
    onePage.cfg.busSize ≤ Forms.pushSlot onePage 0 ∧
    (Forms.pushSlot { onePage with cfg := short 0x0180, sp := 0x00 } 0 < (short 0x0180).busSize ∧
      (short 0x0180).busSize ≤ Forms.pushSlot { onePage with cfg := short 0x0180, sp := 0x00 } 1) := by
  decide

theorem test_witness_RtsReturnsToThePoppedAddress :
    (full.busRead (Forms.popSlot { full with sp := 0xFE } 1) = some 0x56 ∧
      full.busRead (Forms.popSlot { full with sp := 0xFE } 2) = some 0x34) ∧
    onePage.cfg.busSize ≤ Forms.popSlot onePage 1 ∧
    (Forms.popSlot { onePage with cfg := short 0x0180, sp := 0x7E } 1 < (short 0x0180).busSize ∧
      (short 0x0180).busSize ≤ Forms.popSlot { onePage with cfg := short 0x0180, sp := 0x7E } 2) := by
  decide

theorem test_witness_RtiRestoresStatusAndPc :
    (full.busRead (Forms.popSlot { full with sp := 0xFD } 1) = some 0x12 ∧
      full.busRead (Forms.popSlot { full with sp := 0xFD } 2) = some 0x56 ∧
      full.busRead (Forms.popSlot { full with sp := 0xFD } 3) = some 0x34) ∧
    onePage.cfg.busSize ≤ Forms.popSlot onePage 1 ∧
    (Forms.popSlot { onePage with cfg := short 0x0180, sp := 0x7E } 1 < (short 0x0180).busSize ∧
      (short 0x0180).busSize ≤ Forms.popSlot { onePage with cfg := short 0x0180, sp := 0x7E } 2) ∧
    (Forms.popSlot { onePage with cfg := short 0x0180, sp := 0x7D } 1 < (short 0x0180).busSize ∧
      Forms.popSlot { onePage with cfg := short 0x0180, sp := 0x7D } 2 < (short 0x0180).busSize ∧
      (short 0x0180).busSize ≤ Forms.popSlot { onePage with cfg := short 0x0180, sp := 0x7D } 3) := by
  decide

theorem test_witness_PhaAndPhpPushOneByte :
    ((Instr.php, (0x08 : Byte), full.p) = (.pha, 0x48, full.a) ∨ (Instr.php, (0x08 : Byte), full.p) = (.php, 0x08, full.p)) ∧
    Forms.pushSlot full 0 < full.cfg.busSize ∧ onePage.cfg.busSize ≤ Forms.pushSlot onePage 0 := by
  decide

theorem test_witness_PlaAndPlpPullOneByte :
    full.busRead (Forms.popSlot full 1) = some 0x34 ∧ onePage.cfg.busSize ≤ Forms.popSlot onePage 1 := by
  decide

theorem test_witness_FlagInstructionsWriteOneFlag : Forms.FlagForm .v false 0xB8 .clv := .clv

theorem test_witness_FlagsChangeOnlyByTheirWriters :
    full.flag .u = true ∧ ∃ s', exec .sed full = .next s' ∧ s'.flag .d ≠ full.flag .d := ⟨by decide, _, rfl, by decide⟩

theorem test_witness_RegistersChangeOnlyByTheirWriters :
    ∃ s', exec .tsx { full with x := 0x00 } = .next s' ∧ s'.reg .x ≠ ({ full with x := 0x00 } : State).reg .x :=
  ⟨_, rfl, by decide⟩

theorem test_witness_OnlyStoresAndPushesChangeMemory :
    (∃ s', exec .aslAcc full = .next s') ∧ ¬ Forms.WritesMemory .aslAcc ∧
    (∃ s', exec .rti full = .next s') ∧ ¬ Forms.WritesMemory .rti :=
  ⟨⟨_, rfl⟩, by simp [Forms.WritesMemory, Forms.accumulatorForms], ⟨_, rfl⟩, by simp [Forms.WritesMemory, Forms.mnemonic]⟩

theorem test_witness_PcMovesPastTheInstruction :
    (∃ s', exec (.ldaAbs 0x1234) { full with pc := 0xFFFF } = .next s') ∧ ¬ Forms.ControlTransfer (.ldaAbs 0x1234) :=
  ⟨⟨_, rfl⟩, by simp [Forms.ControlTransfer, Forms.mnemonic]⟩

theorem test_witness_EveryInstructionCostsTwoToSevenCycles :
    (∃ s', exec .nop { full with cyc := 2 ^ 64 - 1 } = .next s') ∧ ∃ s', exec .brk full = .next s' := ⟨⟨_, rfl⟩, _, rfl⟩

theorem test_witness_StepsKeepAliasesAndParameters : ∃ s', step { full with refs := [(0x0800, 0x0000)] } = .next s' := ⟨_, rfl⟩

theorem test_full_inv : ({ full with refs := [(0x0800, 0x0000)] } : State).Inv :=
  ⟨by decide, by decide, by decide, by decide, by decide, by decide, by decide⟩

theorem test_witness_StepKeepsInvariant :
    ({ full with refs := [(0x0800, 0x0000)] } : State).Inv ∧ ∃ s', step { full with refs := [(0x0800, 0x0000)] } = .next s' :=
  ⟨test_full_inv, _, rfl⟩

/-- The smallest parameters, and a listed last cell. -/
theorem test_witness_CreationMeetsInvariant :
    Config.wf { busSize := 1, cycWidth := 1, jsrPushOffset := .three } = true ∧ Memory.wf [(0, 0x01)] ∧
      Memory.within [(0, 0x01)] 1 := by
  decide

theorem test_witness_OperationsKeepInvariant :
    ({ full with refs := [(0x0800, 0x0000)] } : State).Inv ∧
    (perform (.mirror 0x0800 0x0802 0x0801 0x0803) { full with refs := [(0x0800, 0x0000)] }).2 = .ok ∧
    (perform (.clearRange 0xFFFF 0x10000) { full with refs := [(0x0800, 0x0000)] }).2 = .rangeError :=
  ⟨test_full_inv, by decide, by decide⟩

/-- A run that goes on and one that has stopped. -/
theorem test_witness_RunsStopOnlyOnUndefinedOpcodes :
    ({ full with refs := [(0x0800, 0x0000)] } : State).Inv ∧ full.cfg.busSize = 65536 ∧
    (∃ s', Sys2Proof.core.run 2 { full with refs := [(0x0800, 0x0000)] } = .next s') ∧
    Sys2Proof.core.run 2 { full with pc := 0x0380, cells := [(0x0380, 0xEA), (0x0381, 0xFF)] } = .fault (.unknownOpcode 0xFF) :=
  ⟨test_full_inv, rfl, ⟨_, rfl⟩, rfl⟩

/-- The same view of four addresses with the shared byte in cell 0 or in cell 1; the hidden cell differs, and NOP runs in both. -/
def viewA : State := { launch 0x0000 [(0, 0xEA)] with cfg := short 4, refs := [(1, 0)] }
def viewB : State := { launch 0x0000 [(0, 0x09), (1, 0xEA)] with cfg := short 4, refs := [(0, 1)] }

theorem test_witness_MirroringIsTransparentToTheCpu :
    SameView viewA viewB ∧ viewA ≠ viewB ∧ completes (step viewA) = true :=
  ⟨⟨rfl, rfl, rfl, rfl, rfl, rfl, rfl, rfl, by decide, fun a b ha hb => by
    have : a < 4 := ha
    have : b < 4 := hb
    interval_cases a <;> interval_cases b <;> decide⟩, by decide, by decide⟩

/-- STA writes through an alias onto the opcode after it. -/
theorem test_witness_StoreIsSeenByTheNextFetch :
    Forms.StoreForm .a 0x8D (.staAbs 0x0800) (.absolute 0x0800) ⟨3, 4, false⟩ ∧
    effAddr (.absolute 0x0800) { full with refs := [(0x0800, 0x0203)] } = .ok (0x0800, false) ∧
    (0x0800 : Word).toNat < full.cfg.busSize ∧ (full.pc + BitVec.ofNat 16 3).toNat < full.cfg.busSize ∧
    ({ full with refs := [(0x0800, 0x0203)] } : State).ref (full.pc + BitVec.ofNat 16 3).toNat =
      ({ full with refs := [(0x0800, 0x0203)] } : State).ref (0x0800 : Word).toNat :=
  ⟨.staAbs _, rfl, by decide, by decide, by decide⟩

/-- STA ($10),Y and then a read of the same cell by Absolute, and of an alias of it. -/
theorem test_witness_StoreThenReadGivesTheByte :
    Forms.StoreForm .a 0x91 (.staIndY 0x10) (.indirectY 0x10) ⟨2, 6, false⟩ ∧
    effAddr (.indirectY 0x10) { full with refs := [(0x0800, 0x0400)] } = .ok (0x0400, true) ∧
    (0x0400 : Word).toNat < full.cfg.busSize ∧
    ∃ s', exec (.staIndY 0x10) { full with refs := [(0x0800, 0x0400)] } = .next s' ∧
      effAddr (.absolute 0x0800) s' = .ok (0x0800, false) ∧ (0x0800 : Word).toNat < full.cfg.busSize ∧
      s'.ref (0x0800 : Word).toNat = s'.ref (0x0400 : Word).toNat :=
  ⟨.staIndY _, rfl, by decide, _, rfl, rfl, by decide, by decide⟩

theorem test_witness_PushThenPullRestores : Forms.pushSlot { full with sp := 0x00 } 0 < full.cfg.busSize := by decide

theorem test_witness_JsrThenRtsReturns :
    Forms.pushSlot { full with sp := 0x00 } 0 < full.cfg.busSize ∧ Forms.pushSlot { full with sp := 0x00 } 1 < full.cfg.busSize ∧
    full.ref (Forms.pushSlot { full with sp := 0x00 } 0) ≠ full.ref (Forms.pushSlot { full with sp := 0x00 } 1) := by
  decide

theorem test_witness_BinarySbcIsAdcOfComplement :
    Forms.SbcForm 0xE9 (.sbcImm 0x50) (.imm 0x50) ⟨2, 2, false⟩ ∧ Forms.AdcForm 0x69 (.adcImm 0xAF) (.imm 0xAF) ⟨2, 2, false⟩ ∧
    full.flag .d = false ∧ readSource (.imm 0x50) full = .ok (0x50, false) ∧
    readSource (.imm 0xAF) full = .ok (~~~0x50, false) := ⟨.sbcImm _, .adcImm _, by decide, rfl, rfl⟩

/-- Operands 99 and 99, in decimal mode. -/
theorem test_witness_DecimalAdcAddsBcd :
    Forms.AdcForm 0x69 (.adcImm 0x99) (.imm 0x99) ⟨2, 2, false⟩ ∧ ({ full with p := 0x29 } : State).flag .d = true ∧
    readSource (.imm 0x99) { full with p := 0x29 } = .ok (0x99, false) ∧ Forms.ValidBcd 0x99 :=
  ⟨.adcImm _, by decide, rfl, by simp [Forms.ValidBcd]⟩

/-- Operands 00 and 99, in decimal mode, with a borrow. -/
theorem test_witness_DecimalSbcSubtractsBcd :
    Forms.SbcForm 0xE9 (.sbcImm 0x99) (.imm 0x99) ⟨2, 2, false⟩ ∧ ({ full with p := 0x28 } : State).flag .d = true ∧
    readSource (.imm 0x99) { full with p := 0x28 } = .ok (0x99, false) ∧ Forms.ValidBcd 0x99 ∧ Forms.ValidBcd 0x00 :=
  ⟨.sbcImm _, by decide, rfl, by simp [Forms.ValidBcd], by simp [Forms.ValidBcd]⟩

/-- The last address, and the first that does not exist. -/
theorem test_witness_ReadAndWriteOneCell :
    0xFFFF < full.cfg.busSize ∧ full.cfg.busSize ≤ 0x10000 ∧
    (0x00FF : Word).toNat < onePage.cfg.busSize ∧ onePage.cfg.busSize ≤ (0x0100 : Word).toNat := by
  decide

theorem test_witness_ClearZeroesTheNamedCells :
    (0x0100 ≤ 0xFFFF ∧ 0xFFFF < full.cfg.busSize) ∧ ¬ (0x0100 ≤ 0x00FF ∧ 0x00FF < full.cfg.busSize) ∧
    ¬ (0x0100 ≤ 0x10000 ∧ 0x10000 < full.cfg.busSize) := by
  decide

/-- Disjoint ranges up to the last address, overlapping ranges, lengths that differ, an end that does not exist. -/
theorem test_witness_MirrorAliasesTheDestination :
    (0x0000 ≤ 0x00FF ∧ 0xFF00 ≤ 0xFFFF ∧ 0x00FF - 0x0000 = 0xFFFF - 0xFF00 ∧ 0x00FF < full.cfg.busSize ∧
      0xFFFF < full.cfg.busSize ∧ (0x00FF < 0xFF00 ∨ 0xFFFF < 0x0000)) ∧
    (0 ≤ 2 ∧ 1 ≤ 3 ∧ 2 - 0 = 3 - 1 ∧ 2 < full.cfg.busSize ∧ 3 < full.cfg.busSize ∧ 1 ≤ 0 + 1 ∧ 0 + 1 < 1 + 1) ∧
    ¬ (0x0000 ≤ 0x00FF ∧ 0x0100 ≤ 0x01FE ∧ 0x00FF - 0x0000 = 0x01FE - 0x0100 ∧ 0x00FF < full.cfg.busSize ∧
      0x01FE < full.cfg.busSize) ∧
    ¬ (0x0001 ≤ 0x0001 ∧ 0x10000 ≤ 0x10000 ∧ 0x0001 - 0x0001 = 0x10000 - 0x10000 ∧ 0x0001 < full.cfg.busSize ∧
      0x10000 < full.cfg.busSize) := by
  decide

theorem test_witness_ClearMirrorRestoresSelfReference :
    (0xFFFF ≤ 0xFFFF ∧ 0xFFFF < full.cfg.busSize) ∧ ¬ (0x0010 ≤ 0x000F ∧ 0x000F < full.cfg.busSize) ∧
    ¬ (0xFFFF ≤ 0x10000 ∧ 0x10000 < full.cfg.busSize) := by
  decide

theorem test_witness_InspectionReportsAndChangesNothing :
    0xFFFE + 2 ≤ full.cfg.busSize ∧ full.cfg.busSize < 0xFFFF + 2 ∧ 0 < 2 := by
  decide

/-- Each kind of failure. -/
theorem test_witness_FailuresChangeNothing :
    (perform (.write 0x10000 0x01) full).2 = .rangeError ∧
    (perform .step (launch 0x0200 [(0x0200, 0xFF)])).2 = .unknownOpcode 0xFF ∧
    (perform (.exec 0x48) onePage).2 = .busError 0x01FF := by
  decide

theorem test_witness_EqualMemoriesAreEqualData :
    Memory.wf [(0x0010, 0x01)] ∧ Memory.wf ((Memory.setCell [(0x0010, 0x02)] 0x0010 0x01).setCell 0x0011 0x00) ∧
    (Memory.setCell [(0x0010, 0x02)] 0x0010 0x01).setCell 0x0011 0x00 = [(0x0010, 0x01)] := by
  decide

end Sys2Proof.Tests
end

/-! # Scope: what every step and every host operation keeps (spec/00_scope.md R6, R8; spec/10_state.md R14 to R18)

An instruction that completes has made a sequence of elementary writes: a register, P with U left at 1, one cell of an
existing address, or PC with CYC. `CpuWrites` is that sequence, and `exec_cpuWrites` says that every instruction is one; what
the elementary writes keep, every step keeps. -/

namespace Sys2Proof.Machine

section Meanings

/-- The shared operations an instruction's meaning can be, at a state: the families of the `exec` arms. -/
inductive Meaning (s : State) : Host.Outcome State Fault Refusal → Prop
  | load (r : Reg) (src : Source) (t : Timing) : Meaning s (load r src t s)
  | store (r : Reg) (m : MemMode) (t : Timing) : Meaning s (store r m t s)
  | transfer (src dst : Reg) (t : Timing) : Meaning s (transfer src dst t s)
  | txs (t : Timing) : Meaning s (.next (finish t false (s.setReg .sp s.x)))
  | adc (src : Source) (t : Timing) : Meaning s (adc src t s)
  | sbc (src : Source) (t : Timing) : Meaning s (sbc src t s)
  | logic (f : Byte → Byte → Byte) (src : Source) (t : Timing) : Meaning s (logic f src t s)
  | bit (src : Source) (t : Timing) : Meaning s (bit src t s)
  | compare (r : Reg) (src : Source) (t : Timing) : Meaning s (compareWith r src t s)
  | shift (f : Bool → Byte → Byte × Bool) (pl : Place) (t : Timing) : Meaning s (shift f pl t s)
  | addToCell (k : Byte) (m : MemMode) (t : Timing) : Meaning s (addToCell k m t s)
  | addToReg (k : Byte) (r : Reg) (t : Timing) : Meaning s (addToReg k r t s)
  | branch (cond : Bool) (d : Byte) : Meaning s (branch cond d s)
  | jump (m : JumpMode) (base : Nat) : Meaning s (jump m base s)
  | jsr (w : Word) (base : Nat) : Meaning s (callSubroutine (.absolute w) base s)
  | rts (base : Nat) : Meaning s (returnFromSubroutine base s)
  | rti (base : Nat) : Meaning s (returnFromInterrupt base s)
  | push (v : Byte) (t : Timing) : Meaning s (pushByte v t s)
  | pla (t : Timing) : Meaning s (pullByte (fun v u => (u.setReg .a v).setZN v) t s)
  | plp (t : Timing) : Meaning s (pullByte (fun v u => u.mapP fun _ => statusByte v) t s)
  | writeFlag (f : Flag) (v : Bool) (t : Timing) (hf : f ≠ .u) : Meaning s (writeFlag f v t s)
  | idle (t : Timing) : Meaning s (.next (finish t false s))

/-- Every instruction is one of the shared operations (R81). -/
theorem exec_meaning (s : State) (i : Instr) : Meaning s (exec i s) := by
  unfold exec
  cases i with
  | ldaImm _ | ldaZp _ | ldaZpX _ | ldaAbs _ | ldaAbsX _ | ldaAbsY _ | ldaIndX _ | ldaIndY _
  | ldxImm _ | ldxZp _ | ldxZpY _ | ldxAbs _ | ldxAbsY _
  | ldyImm _ | ldyZp _ | ldyZpX _ | ldyAbs _ | ldyAbsX _ => exact .load _ _ _
  | staZp _ | staZpX _ | staAbs _ | staAbsX _ | staAbsY _ | staIndX _ | staIndY _
  | stxZp _ | stxZpY _ | stxAbs _ | styZp _ | styZpX _ | styAbs _ => exact .store _ _ _
  | tax | tay | txa | tya | tsx => exact .transfer _ _ _
  | txs => exact .txs _
  | adcImm _ | adcZp _ | adcZpX _ | adcAbs _ | adcAbsX _ | adcAbsY _ | adcIndX _ | adcIndY _ => exact .adc _ _
  | sbcImm _ | sbcZp _ | sbcZpX _ | sbcAbs _ | sbcAbsX _ | sbcAbsY _ | sbcIndX _ | sbcIndY _ => exact .sbc _ _
  | andImm _ | andZp _ | andZpX _ | andAbs _ | andAbsX _ | andAbsY _ | andIndX _ | andIndY _
  | oraImm _ | oraZp _ | oraZpX _ | oraAbs _ | oraAbsX _ | oraAbsY _ | oraIndX _ | oraIndY _
  | eorImm _ | eorZp _ | eorZpX _ | eorAbs _ | eorAbsX _ | eorAbsY _ | eorIndX _ | eorIndY _ => exact .logic _ _ _
  | bitZp _ | bitAbs _ => exact .bit _ _
  | cmpImm _ | cmpZp _ | cmpZpX _ | cmpAbs _ | cmpAbsX _ | cmpAbsY _ | cmpIndX _ | cmpIndY _
  | cpxImm _ | cpxZp _ | cpxAbs _ | cpyImm _ | cpyZp _ | cpyAbs _ => exact .compare _ _ _
  | aslAcc | aslZp _ | aslZpX _ | aslAbs _ | aslAbsX _ | lsrAcc | lsrZp _ | lsrZpX _ | lsrAbs _ | lsrAbsX _
  | rolAcc | rolZp _ | rolZpX _ | rolAbs _ | rolAbsX _ | rorAcc | rorZp _ | rorZpX _ | rorAbs _
  | rorAbsX _ => exact .shift _ _ _
  | incZp _ | incZpX _ | incAbs _ | incAbsX _ | decZp _ | decZpX _ | decAbs _ | decAbsX _ => exact .addToCell _ _ _
  | inx | iny | dex | dey => exact .addToReg _ _ _
  | bcc _ | bcs _ | beq _ | bmi _ | bne _ | bpl _ | bvc _ | bvs _ => exact .branch _ _
  | jmpAbs _ | jmpInd _ => exact .jump _ _
  | jsr _ => exact .jsr _ _
  | rts => exact .rts _
  | rti => exact .rti _
  | pha | php => exact .push _ _
  | pla => exact .pla _
  | plp => exact .plp _
  | clc | sec | cli | sei | cld | sed | clv => exact .writeFlag _ _ _ (by decide)
  | nop | brk => exact .idle _

/-- STEP completes only by completing an instruction in the same state (R80). -/
theorem step_eq_next_iff {s s' : State} : step s = .next s' ↔ ∃ i, fetch s = .ok i ∧ exec i s = .next s' := by
  unfold step
  cases fetch s <;> simp

/-- EXEC completes only by completing an instruction in the same state (R81). -/
theorem execOpcode_eq_next_iff {op : Byte} {s s' : State} :
    execOpcode op s = .next s' ↔ ∃ i, fetchOperands op s = .ok i ∧ exec i s = .next s' := by
  unfold execOpcode
  cases fetchOperands op s <;> simp

end Meanings

section Writes

/-- t is reached from s by elementary writes of the CPU: a register, P with U left at 1 (R14), the cell of an address below N
(R32, R212), PC with CYC (R12, R16). -/
inductive CpuWrites (s : State) : State → Prop
  | refl : CpuWrites s s
  | setReg {t : State} (r : Reg) (v : Byte) (h : CpuWrites s t) : CpuWrites s (t.setReg r v)
  | mapP {t : State} {g : Byte → Byte} (hg : ∀ p, flagOf p .u = true → flagOf (g p) .u = true) (h : CpuWrites s t) :
      CpuWrites s (t.mapP g)
  | poke {t : State} {a : Nat} (v : Byte) (ha : a < t.cfg.busSize) (h : CpuWrites s t) : CpuWrites s (t.poke a v)
  | goTo {t : State} (w : Word) (n : Nat) (h : CpuWrites s t) : CpuWrites s (t.goTo w n)

namespace CpuWrites

variable {s t : State}

theorem finish (tm : Timing) (c : Bool) (h : CpuWrites s t) : CpuWrites s (finish tm c t) := h.goTo _ _

theorem setZN (v : Byte) (h : CpuWrites s t) : CpuWrites s (t.setZN v) := h.mapP fun p hp => by simpa using hp

theorem writeFlag {f : Flag} (v : Bool) (hf : f ≠ .u) (h : CpuWrites s t) : CpuWrites s (t.mapP (withFlag f v)) :=
  h.mapP fun p hp => by simpa [hf.symm] using hp

theorem writeP (v : Byte) (h : CpuWrites s t) : CpuWrites s (t.mapP fun _ => statusByte v) := h.mapP fun p _ => by simp

theorem arithFlags (c v : Bool) (r : Byte) (h : CpuWrites s t) : CpuWrites s (t.mapP (withArithFlags c v r)) :=
  h.mapP fun p hp => by simpa using hp

theorem bitFlags (a m : Byte) (h : CpuWrites s t) : CpuWrites s (t.mapP (withBitFlags a m)) :=
  h.mapP fun p hp => by simpa using hp

theorem compareFlags (r m : Byte) (h : CpuWrites s t) : CpuWrites s (t.mapP (withCompareFlags r m)) :=
  h.mapP fun p hp => by simpa using hp

/-- R18, R38: the CPU writes neither the alias table nor a parameter. -/
theorem refs_cfg (h : CpuWrites s t) : t.refs = s.refs ∧ t.cfg = s.cfg := by
  induction h with
  | refl => exact ⟨rfl, rfl⟩
  | setReg r v _ ih => simpa using ih
  | mapP _ _ ih => exact ih
  | poke v _ _ ih => exact ih
  | goTo w n _ ih => exact ih

end CpuWrites

/-- An instruction that completes has made elementary writes only. -/
theorem Meaning.cpuWrites {s s' : State} {o : Host.Outcome State Fault Refusal} (hm : Meaning s o) (h : o = .next s') :
    CpuWrites s s' := by
  cases hm with
  | load r src t =>
    obtain ⟨v, c, -, rfl⟩ := load_eq_next_iff.1 h
    exact ((CpuWrites.refl.setReg r v).setZN v).finish t c
  | store r m t =>
    obtain ⟨ea, c, -, hea, rfl⟩ := store_eq_next_iff.1 h
    exact (CpuWrites.refl.poke _ hea).finish t c
  | transfer src dst t =>
    cases h
    exact ((CpuWrites.refl.setReg dst _).setZN _).finish t false
  | txs t =>
    cases h
    exact (CpuWrites.refl.setReg .sp _).finish t false
  | adc src t =>
    obtain ⟨m, c, -, rfl⟩ := adc_eq_next_iff.1 h
    exact ((CpuWrites.refl.setReg .a _).arithFlags _ _ _).finish t c
  | sbc src t =>
    obtain ⟨m, c, -, rfl⟩ := sbc_eq_next_iff.1 h
    exact ((CpuWrites.refl.setReg .a _).arithFlags _ _ _).finish t c
  | logic f src t =>
    obtain ⟨m, c, -, rfl⟩ := logic_eq_next_iff.1 h
    exact ((CpuWrites.refl.setReg .a _).setZN _).finish t c
  | bit src t =>
    obtain ⟨m, c, -, rfl⟩ := bit_eq_next_iff.1 h
    exact (CpuWrites.refl.bitFlags _ _).finish t c
  | compare r src t =>
    obtain ⟨m, c, -, rfl⟩ := compareWith_eq_next_iff.1 h
    exact (CpuWrites.refl.compareFlags _ _).finish t c
  | shift f pl t =>
    cases pl with
    | acc =>
      cases h
      exact (((CpuWrites.refl.setReg .a _).writeFlag _ (by decide)).setZN _).finish t false
    | mem m =>
      obtain ⟨ea, c, -, hea, rfl⟩ := shift_mem_eq_next_iff.1 h
      exact (((CpuWrites.refl.poke _ hea).writeFlag _ (by decide)).setZN _).finish t false
  | addToCell k m t =>
    obtain ⟨ea, c, -, hea, rfl⟩ := addToCell_eq_next_iff.1 h
    exact ((CpuWrites.refl.poke _ hea).setZN _).finish t false
  | addToReg k r t =>
    cases h
    exact ((CpuWrites.refl.setReg r _).setZN _).finish t false
  | branch cond d =>
    rw [branch_eq_next] at h
    cases h
    exact CpuWrites.refl.goTo _ _
  | jump m base =>
    obtain ⟨w, -, rfl⟩ := jump_eq_next_iff.1 h
    exact CpuWrites.refl.goTo w base
  | jsr w base =>
    obtain ⟨hhi, hlo, rfl⟩ := callSubroutine_absolute_eq_next_iff.1 h
    exact ((((CpuWrites.refl.poke _ hhi).setReg .sp _).poke _ (by simpa using hlo)).setReg .sp _).goTo w base
  | rts base =>
    obtain ⟨-, -, rfl⟩ := returnFromSubroutine_eq_next_iff.1 h
    exact ((CpuWrites.refl.setReg .sp _).setReg .sp _).goTo _ base
  | rti base =>
    obtain ⟨-, -, -, rfl⟩ := returnFromInterrupt_eq_next_iff.1 h
    exact ((((CpuWrites.refl.setReg .sp _).setReg .sp _).setReg .sp _).writeP _).goTo _ base
  | push v t =>
    obtain ⟨hsp, rfl⟩ := pushByte_eq_next_iff.1 h
    exact ((CpuWrites.refl.poke v hsp).setReg .sp _).finish t false
  | pla t =>
    obtain ⟨-, rfl⟩ := pullByte_eq_next_iff.1 h
    exact (((CpuWrites.refl.setReg .sp _).setReg .a _).setZN _).finish t false
  | plp t =>
    obtain ⟨-, rfl⟩ := pullByte_eq_next_iff.1 h
    exact ((CpuWrites.refl.setReg .sp _).writeP _).finish t false
  | writeFlag f v t hf =>
    cases h
    exact (CpuWrites.refl.writeFlag v hf).finish t false
  | idle t =>
    cases h
    exact CpuWrites.refl.finish t false

theorem exec_cpuWrites {i : Instr} {s s' : State} (h : exec i s = .next s') : CpuWrites s s' :=
  (exec_meaning s i).cpuWrites h

theorem step_cpuWrites {s s' : State} (h : step s = .next s') : CpuWrites s s' := by
  obtain ⟨i, -, hi⟩ := step_eq_next_iff.1 h
  exact exec_cpuWrites hi

theorem execOpcode_cpuWrites {op : Byte} {s s' : State} (h : execOpcode op s = .next s') : CpuWrites s s' := by
  obtain ⟨i, -, hi⟩ := execOpcode_eq_next_iff.1 h
  exact exec_cpuWrites hi

end Writes

section Invariant

theorem Memory.setCell_within {m : Memory} {n i : Nat} (v : Byte) (hi : i < n) (h : m.within n) :
    (m.setCell i v).within n := by
  intro e he
  rcases Sparse.mem_set he with rfl | he
  · exact hi
  · exact h e he

theorem AliasTable.setRef_within {t : AliasTable} {n a i : Nat} (ha : a < n) (hi : i < n) (h : t.within n) :
    (t.setRef a i).within n := by
  intro e he
  rcases Sparse.mem_set he with rfl | he
  · exact ⟨ha, hi⟩
  · exact h e he

namespace State.Inv

variable {s : State}

/-- Every existing address names an existing cell (R18). -/
theorem ref_lt (h : s.Inv) {a : Nat} (ha : a < s.cfg.busSize) : s.ref a < s.cfg.busSize :=
  AliasTable.ref_lt (fun e he => (h.refsWithin e he).2) ha

theorem setReg (h : s.Inv) (r : Reg) (v : Byte) : (s.setReg r v).Inv := by
  cases r <;> exact { h with }

theorem mapP (h : s.Inv) {g : Byte → Byte} (hg : flagOf (g s.p) .u = true) : (s.mapP g).Inv := { h with unused := hg }

theorem goTo (h : s.Inv) (w : Word) (n : Nat) : (s.goTo w n).Inv := { h with cyc := Nat.mod_lt _ (Nat.two_pow_pos _) }

/-- A write of any existing cell, through the alias table or past it (R32, R48). -/
theorem setCell (h : s.Inv) {c : Nat} (v : Byte) (hc : c < s.cfg.busSize) :
    ({ s with cells := s.cells.setCell c v } : State).Inv :=
  { h with cells := Memory.setCell_wf c v h.cells, cellsWithin := Memory.setCell_within v hc h.cellsWithin }

theorem poke (h : s.Inv) {a : Nat} (v : Byte) (ha : a < s.cfg.busSize) : (s.poke a v).Inv := h.setCell v (h.ref_lt ha)

theorem setRef (h : s.Inv) {a i : Nat} (ha : a < s.cfg.busSize) (hi : i < s.cfg.busSize) : (s.setRef a i).Inv :=
  { h with
    refs := AliasTable.setRef_wf a i h.refs
    refsWithin := AliasTable.setRef_within ha hi h.refsWithin }

end State.Inv

/-- Elementary writes of the CPU keep the invariant. -/
theorem CpuWrites.inv {s t : State} (h : CpuWrites s t) (hs : s.Inv) : t.Inv := by
  induction h with
  | refl => exact hs
  | setReg r v _ ih => exact ih.setReg r v
  | mapP hg _ ih => exact ih.mapP (hg _ ih.unused)
  | poke v ha _ ih => exact ih.poke v ha
  | goTo w n _ ih => exact ih.goTo w n

/-- The reset value of P has U = 1 (R14, R230). -/
theorem flagOf_reset_u : flagOf 0x20 .u = true := by decide

/-- A created CORE has the invariant (R8, R232; D23, D24). -/
theorem State.create_inv {cfg : Config} {image : Memory} (hcfg : cfg.wf = true) (hwf : image.wf)
    (hin : image.within cfg.busSize) : (State.create cfg image).Inv where
  cfg := hcfg
  cells := hwf
  cellsWithin := hin
  refs := ⟨.nil, by simp [State.create]⟩
  refsWithin := by simp [State.create]
  unused := flagOf_reset_u
  cyc := Nat.two_pow_pos _

/-- RESET writes registers only, and gives U its 1 (R230, R231). -/
theorem State.Inv.resetRegs {s : State} (h : s.Inv) : s.resetRegs.Inv :=
  { h with unused := flagOf_reset_u, cyc := Nat.two_pow_pos _ }

/-! ### The range operations of the BUS -/

theorem clearCells_inv (n a : Nat) {s : State} (h : s.Inv) (hn : a + n ≤ s.cfg.busSize) : (clearCells n a s).Inv := by
  induction n generalizing a s with
  | zero => exact h
  | succ n ih => exact ih (a + 1) (h.poke 0x00 (by omega)) (by rw [State.poke_cfg]; omega)

theorem copyRefs_inv (n src dst : Nat) {s : State} (h : s.Inv) (hsrc : src + n ≤ s.cfg.busSize)
    (hdst : dst + n ≤ s.cfg.busSize) : (copyRefs n src dst s).Inv := by
  induction n generalizing src dst s with
  | zero => exact h
  | succ n ih =>
    exact ih (src + 1) (dst + 1) (h.setRef (by omega) (h.ref_lt (by omega)))
      (by rw [State.setRef_cfg]; omega) (by rw [State.setRef_cfg]; omega)

theorem clearRefs_inv (n a : Nat) {s : State} (h : s.Inv) (hn : a + n ≤ s.cfg.busSize) : (clearRefs n a s).Inv := by
  induction n generalizing a s with
  | zero => exact h
  | succ n ih => exact ih (a + 1) (h.setRef (by omega) (by omega)) (by rw [State.setRef_cfg]; omega)

theorem State.busWrite_inv {s t : State} {a : Nat} {v : Byte} (h : s.Inv) (ht : s.busWrite a v = some t) : t.Inv := by
  obtain ⟨ha, rfl⟩ : a < s.cfg.busSize ∧ s.poke a v = t := by simpa [State.busWrite] using ht
  exact h.poke v ha

theorem State.writeCell_inv {s t : State} {c : Nat} {v : Byte} (h : s.Inv) (ht : s.writeCell c v = some t) : t.Inv := by
  obtain ⟨hc, rfl⟩ : c < s.cfg.busSize ∧ _ = t := by simpa [State.writeCell] using ht
  exact h.setCell v hc

theorem State.clear_inv {s : State} (h : s.Inv) : s.clear.Inv := clearCells_inv _ 0 h (by omega)

theorem State.clearRange_inv {s t : State} {first last : Nat} (h : s.Inv) (ht : s.clearRange first last = some t) :
    t.Inv := by
  obtain ⟨⟨hle, hlast⟩, rfl⟩ : (first ≤ last ∧ last < s.cfg.busSize) ∧ _ = t := by
    simpa [State.clearRange, State.rangeOk_iff] using ht
  exact clearCells_inv _ first h (by omega)

theorem State.mirror_inv {s t : State} {srcFirst srcLast dstFirst dstLast : Nat} (h : s.Inv)
    (ht : s.mirror srcFirst srcLast dstFirst dstLast = some t) : t.Inv := by
  obtain ⟨⟨⟨⟨hs, hsN⟩, hd, hdN⟩, hlen⟩, rfl⟩ :
      (((srcFirst ≤ srcLast ∧ srcLast < s.cfg.busSize) ∧ dstFirst ≤ dstLast ∧ dstLast < s.cfg.busSize) ∧
        srcLast - srcFirst = dstLast - dstFirst) ∧ _ = t := by
    simpa [State.mirror, State.rangeOk_iff] using ht
  exact copyRefs_inv _ srcFirst dstFirst h (by omega) (by omega)

theorem State.clearMirror_inv {s t : State} {first last : Nat} (h : s.Inv) (ht : s.clearMirror first last = some t) :
    t.Inv := by
  obtain ⟨⟨hle, hlast⟩, rfl⟩ : (first ≤ last ∧ last < s.cfg.busSize) ∧ _ = t := by
    simpa [State.clearMirror, State.rangeOk_iff] using ht
  exact clearRefs_inv _ first h (by omega)

/-! ### Replies -/

/-- A BUS operation that fails answers the state as it was (R33). -/
theorem busReply_inv {s : State} {o : Option State} (h : s.Inv) (ho : ∀ t, o = some t → t.Inv) : (busReply s o).1.Inv := by
  cases o with
  | none => exact h
  | some t => exact ho t rfl

/-- A CPU operation that fails answers the state as it was (R211, R212). -/
theorem cpuReply_inv {s : State} {o : Host.Outcome State Fault Refusal} (h : s.Inv) (ho : ∀ t, o = .next t → t.Inv) :
    (cpuReply s o).1.Inv := by
  cases o with
  | next t => exact ho t rfl
  | fault f => cases f <;> exact h
  | refused q => exact h

/-- R6: every operation keeps the invariant. -/
theorem perform_inv (r : Request) {s : State} (h : s.Inv) : (perform r s).1.Inv := by
  cases r with
  | reset => exact h.resetRegs
  | step => exact cpuReply_inv h fun t ht => (step_cpuWrites ht).inv h
  | exec op => exact cpuReply_inv h fun t ht => (execOpcode_cpuWrites ht).inv h
  | snapshot => exact h
  | read addr => simp only [perform]; split <;> exact h
  | write addr v => exact busReply_inv h fun t ht => State.busWrite_inv h ht
  | clear => exact State.clear_inv h
  | clearRange first last => exact busReply_inv h fun t ht => State.clearRange_inv h ht
  | mirror srcFirst srcLast dstFirst dstLast => exact busReply_inv h fun t ht => State.mirror_inv h ht
  | clearMirror first last => exact busReply_inv h fun t ht => State.clearMirror_inv h ht
  | readBytes addr count => simp only [perform]; split <;> exact h
  | writeCell c v => exact busReply_inv h fun t ht => State.writeCell_inv h ht

end Invariant

/-- Settles O40: a completing step is a sequence of elementary writes, and each of them keeps the invariant. -/
theorem stepKeepsInvariant : Obligations.StepKeepsInvariant :=
  fun _ _ hs h => (step_cpuWrites h).inv hs

/-- Settles O42, by the request: its operation is a sequence of writes that keep the invariant, or answers the old state. -/
theorem operationsKeepInvariant : Obligations.OperationsKeepInvariant :=
  fun r _ hs => perform_inv r hs

/-- Settles O39: no elementary write of the CPU names the alias table or a parameter. -/
theorem stepsKeepAliasesAndParameters : Obligations.StepsKeepAliasesAndParameters :=
  fun _ _ h => (step_cpuWrites h).refs_cfg

/-- Settles O41: State.reset is a creation with the default parameters and the empty image. -/
theorem creationMeetsInvariant : Obligations.CreationMeetsInvariant :=
  ⟨State.create_inv (by decide) State.reset_cells_wf (by simp), fun _ _ => State.create_inv⟩

end Sys2Proof.Machine

/-! # State: which instruction may change what, and what no instruction can tell apart (spec/10_state.md R10 to R20)

`exec_sharedOp` names the shared operation of every instruction as a function of the state, with the instruction's entries in
the spec's lists of writers and its row of R66. Three things follow by cases on that operation: `exec_effect`, that a completed
instruction made only writes it is listed for (O34 to O38); `Simulation.step`, that a relation every elementary write keeps is
kept by STEP (O44, O45); `exec_completesOrBusError`, that an instruction fails by BUS_ERROR only (O43). -/

namespace Sys2Proof.Machine

open Sys2Proof.Forms

section Rows

/-- Whether i is a writer of a register is looked up in the lists of R10 and R11. -/
def decidableWritesReg (i : Instr) : ∀ r, Decidable (WritesReg r i)
  | .a => inferInstanceAs (Decidable (_ ∨ _))
  | .x | .y | .sp => inferInstanceAs (Decidable (_ ∈ _))

/-- The rows of R10, R11, R15 and R17 allow i to write these registers, these flags and, with `mem`, a cell. -/
def permits (i : Instr) (rs : List Reg) (fs : List Flag) (mem : Bool) : Bool :=
  rs.all (fun r => @decide (WritesReg r i) (decidableWritesReg i r)) &&
  fs.all (fun f => decide (mnemonic i ∈ flagWriters f)) &&
  (!mem || @decide (WritesMemory i) (inferInstanceAs (Decidable (_ ∧ _))))

/-- The row of R66 that i has: the length of its encoding, and from 2 to 7 cycles. -/
def rowOf (i : Instr) (t : Timing) : Bool :=
  t.length == (encode i).length && decide (2 ≤ t.base) && decide (t.base + (if t.crossExtra then 1 else 0) ≤ 7)

/-- A control transfer with a base cost of R66. -/
def transferCost (i : Instr) (base : Nat) : Bool :=
  @decide (ControlTransfer i) (inferInstanceAs (Decidable (_ ∈ _))) && decide (2 ≤ base) && decide (base ≤ 7)

/-- The flags that WriteP gives the bits of its byte: all but U (R14, R99). -/
def writePFlags : List Flag := [.c, .z, .i, .d, .b, .v, .n]

/-- The shared operation that i is, as a function of the state: `Meaning` says it at one state and of no instruction in
particular; here stands also what i's row of R66 says of its length and cost, and which registers, flags and cells the lists of
R10, R11, R15 and R17 let it write. -/
inductive SharedOp (i : Instr) : (State → Host.Outcome State Fault Refusal) → Prop
  | load (r : Reg) (src : Source) {t : Timing} (ht : rowOf i t = true) (hw : permits i [r] [.z, .n] false = true) :
      SharedOp i (load r src t)
  | store (r : Reg) (m : MemMode) {t : Timing} (ht : rowOf i t = true) (hw : permits i [] [] true = true) :
      SharedOp i (store r m t)
  | transfer (src dst : Reg) {t : Timing} (ht : rowOf i t = true) (hw : permits i [dst] [.z, .n] false = true) :
      SharedOp i (transfer src dst t)
  | txs {t : Timing} (ht : rowOf i t = true) (hw : permits i [.sp] [] false = true) :
      SharedOp i fun s => .next (finish t false (s.setReg .sp s.x))
  | adc (src : Source) {t : Timing} (ht : rowOf i t = true) (hw : permits i [.a] [.c, .z, .v, .n] false = true) :
      SharedOp i (adc src t)
  | sbc (src : Source) {t : Timing} (ht : rowOf i t = true) (hw : permits i [.a] [.c, .z, .v, .n] false = true) :
      SharedOp i (sbc src t)
  | logic (f : Byte → Byte → Byte) (src : Source) {t : Timing} (ht : rowOf i t = true)
      (hw : permits i [.a] [.z, .n] false = true) : SharedOp i (logic f src t)
  | bit (src : Source) {t : Timing} (ht : rowOf i t = true) (hw : permits i [] [.z, .v, .n] false = true) :
      SharedOp i (bit src t)
  | compare (r : Reg) (src : Source) {t : Timing} (ht : rowOf i t = true)
      (hw : permits i [] [.c, .z, .n] false = true) : SharedOp i (compareWith r src t)
  | shiftAcc (f : Bool → Byte → Byte × Bool) {t : Timing} (ht : rowOf i t = true)
      (hw : permits i [.a] [.c, .z, .n] false = true) : SharedOp i (shift f .acc t)
  | shiftMem (f : Bool → Byte → Byte × Bool) (m : MemMode) {t : Timing} (ht : rowOf i t = true)
      (hw : permits i [] [.c, .z, .n] true = true) : SharedOp i (shift f (.mem m) t)
  | addToCell (k : Byte) (m : MemMode) {t : Timing} (ht : rowOf i t = true)
      (hw : permits i [] [.z, .n] true = true) : SharedOp i (addToCell k m t)
  | addToReg (k : Byte) (r : Reg) {t : Timing} (ht : rowOf i t = true)
      (hw : permits i [r] [.z, .n] false = true) : SharedOp i (addToReg k r t)
  | branch (cond : State → Bool) (hc : ∀ s t : State, s.p = t.p → cond s = cond t) (d : Byte)
      (hi : ControlTransfer i) : SharedOp i fun s => branch (cond s) d s
  | jump (m : JumpMode) {base : Nat} (hb : transferCost i base = true) : SharedOp i (jump m base)
  | jsr (w : Word) {base : Nat} (hb : transferCost i base = true) (hw : permits i [.sp] [] true = true) :
      SharedOp i (callSubroutine (.absolute w) base)
  | rts {base : Nat} (hb : transferCost i base = true) (hw : permits i [.sp] [] false = true) :
      SharedOp i (returnFromSubroutine base)
  | rti {base : Nat} (hb : transferCost i base = true)
      (hw : permits i [.sp] writePFlags false = true) : SharedOp i (returnFromInterrupt base)
  | push (v : State → Byte) (hv : ∀ s t : State, s.a = t.a → s.p = t.p → v s = v t) {t : Timing}
      (ht : rowOf i t = true) (hw : permits i [.sp] [] true = true) : SharedOp i fun s => pushByte (v s) t s
  | pla {t : Timing} (ht : rowOf i t = true) (hw : permits i [.sp, .a] [.z, .n] false = true) :
      SharedOp i (pullByte (fun v u => (u.setReg .a v).setZN v) t)
  | plp {t : Timing} (ht : rowOf i t = true) (hw : permits i [.sp] writePFlags false = true) :
      SharedOp i (pullByte (fun v u => u.mapP fun _ => statusByte v) t)
  | writeFlag (f : Flag) (v : Bool) {t : Timing} (ht : rowOf i t = true) (hw : permits i [] [f] false = true) :
      SharedOp i (writeFlag f v t)
  | idle {t : Timing} (ht : rowOf i t = true) : SharedOp i fun s => .next (finish t false s)

/-- Every instruction is one of the shared operations, with its own row and its own entries in the lists of writers (R81). -/
theorem exec_sharedOp (i : Instr) : SharedOp i (exec i) := by
  unfold exec
  cases i with
  | ldaImm _ | ldaZp _ | ldaZpX _ | ldaAbs _ | ldaAbsX _ | ldaAbsY _ | ldaIndX _ | ldaIndY _
  | ldxImm _ | ldxZp _ | ldxZpY _ | ldxAbs _ | ldxAbsY _
  | ldyImm _ | ldyZp _ | ldyZpX _ | ldyAbs _ | ldyAbsX _ => refine .load _ _ ?_ ?_ <;> rfl
  | staZp _ | staZpX _ | staAbs _ | staAbsX _ | staAbsY _ | staIndX _ | staIndY _
  | stxZp _ | stxZpY _ | stxAbs _ | styZp _ | styZpX _ | styAbs _ => refine .store _ _ ?_ ?_ <;> rfl
  | tax | tay | tsx | txa | tya => refine .transfer _ _ ?_ ?_ <;> rfl
  | txs => refine .txs ?_ ?_ <;> rfl
  | adcImm _ | adcZp _ | adcZpX _ | adcAbs _ | adcAbsX _ | adcAbsY _ | adcIndX _ | adcIndY _ =>
    refine .adc _ ?_ ?_ <;> rfl
  | sbcImm _ | sbcZp _ | sbcZpX _ | sbcAbs _ | sbcAbsX _ | sbcAbsY _ | sbcIndX _ | sbcIndY _ =>
    refine .sbc _ ?_ ?_ <;> rfl
  | andImm _ | andZp _ | andZpX _ | andAbs _ | andAbsX _ | andAbsY _ | andIndX _ | andIndY _
  | oraImm _ | oraZp _ | oraZpX _ | oraAbs _ | oraAbsX _ | oraAbsY _ | oraIndX _ | oraIndY _
  | eorImm _ | eorZp _ | eorZpX _ | eorAbs _ | eorAbsX _ | eorAbsY _ | eorIndX _ | eorIndY _ =>
    refine .logic _ _ ?_ ?_ <;> rfl
  | bitZp _ | bitAbs _ => refine .bit _ ?_ ?_ <;> rfl
  | cmpImm _ | cmpZp _ | cmpZpX _ | cmpAbs _ | cmpAbsX _ | cmpAbsY _ | cmpIndX _ | cmpIndY _
  | cpxImm _ | cpxZp _ | cpxAbs _ | cpyImm _ | cpyZp _ | cpyAbs _ => refine .compare _ _ ?_ ?_ <;> rfl
  | aslAcc | lsrAcc | rolAcc | rorAcc => refine .shiftAcc _ ?_ ?_ <;> rfl
  | aslZp _ | aslZpX _ | aslAbs _ | aslAbsX _ | lsrZp _ | lsrZpX _ | lsrAbs _ | lsrAbsX _
  | rolZp _ | rolZpX _ | rolAbs _ | rolAbsX _ | rorZp _ | rorZpX _ | rorAbs _ | rorAbsX _ =>
    refine .shiftMem _ _ ?_ ?_ <;> rfl
  | incZp _ | incZpX _ | incAbs _ | incAbsX _ | decZp _ | decZpX _ | decAbs _ | decAbsX _ =>
    refine .addToCell _ _ ?_ ?_ <;> rfl
  | inx | iny | dex | dey => refine .addToReg _ _ ?_ ?_ <;> rfl
  | bcc _ | bcs _ | beq _ | bmi _ | bne _ | bpl _ | bvc _ | bvs _ =>
    refine .branch _ (fun s t h => by simp [h]) _ ?_
    exact List.mem_of_elem_eq_true rfl
  | jmpAbs _ | jmpInd _ =>
    refine .jump _ ?_
    rfl
  | jsr _ => refine .jsr _ ?_ ?_ <;> rfl
  | rts => refine .rts ?_ ?_ <;> rfl
  | rti => refine .rti ?_ ?_ <;> rfl
  | pha => refine .push _ (fun _ _ ha _ => ha) ?_ ?_ <;> rfl
  | php => refine .push _ (fun _ _ _ hp => hp) ?_ ?_ <;> rfl
  | pla => refine .pla ?_ ?_ <;> rfl
  | plp => refine .plp ?_ ?_ <;> rfl
  | clc | sec | cli | sei | cld | sed | clv => refine .writeFlag _ _ ?_ ?_ <;> rfl
  | nop | brk =>
    refine .idle ?_
    rfl

theorem permits_iff {i : Instr} {rs : List Reg} {fs : List Flag} {mem : Bool} :
    permits i rs fs mem = true ↔
      (∀ r ∈ rs, WritesReg r i) ∧ (∀ f ∈ fs, mnemonic i ∈ flagWriters f) ∧ (mem = true → WritesMemory i) := by
  cases mem <;> simp [permits, and_assoc]

theorem rowOf_iff {i : Instr} {t : Timing} :
    rowOf i t = true ↔
      t.length = (encode i).length ∧ 2 ≤ t.base ∧ t.base + (if t.crossExtra then 1 else 0) ≤ 7 := by
  simp [rowOf, and_assoc]

theorem transferCost_iff {i : Instr} {base : Nat} :
    transferCost i base = true ↔ ControlTransfer i ∧ 2 ≤ base ∧ base ≤ 7 := by
  simp [transferCost, and_assoc]

/-- WriteP gives U its 1, and U is the only flag it does not take from its byte (R99). -/
theorem flagOf_statusByte_of_unlisted (v p : Byte) (f : Flag) (hu : flagOf p .u = true) (hf : f ∉ writePFlags) :
    flagOf (statusByte v) f = flagOf p f := by
  cases f <;> simp_all [writePFlags]

end Rows

section Effects

/-- t is reached from s by writes of registers, flags (where U is 1) and cells that i is listed as a writer of. -/
inductive InstrWrites (i : Instr) (s : State) : State → Prop
  | refl : InstrWrites i s s
  | setReg {t : State} {r : Reg} (v : Byte) (hr : WritesReg r i) (h : InstrWrites i s t) : InstrWrites i s (t.setReg r v)
  | mapP {t : State} {g : Byte → Byte}
      (hg : ∀ p f, flagOf p .u = true → mnemonic i ∉ flagWriters f → flagOf (g p) f = flagOf p f)
      (h : InstrWrites i s t) : InstrWrites i s (t.mapP g)
  | poke {t : State} (a : Nat) (v : Byte) (hm : WritesMemory i) (h : InstrWrites i s t) : InstrWrites i s (t.poke a v)

/-- s' is reached from s by such writes and then one of PC and CYC: 2 to 7 cycles, and PC to the byte after i's last one, unless
i is a control transfer (R12, R16, R82). -/
inductive InstrEffect (i : Instr) (s : State) : State → Prop
  | goTo {t : State} (h : InstrWrites i s t) (w : Word) (n : Nat) (hn : 2 ≤ n ∧ n ≤ 7)
      (hw : ¬ ControlTransfer i → w = t.pc + BitVec.ofNat 16 (encode i).length) : InstrEffect i s (t.goTo w n)

variable {i : Instr} {s t : State} {rs : List Reg} {fs : List Flag} {mem : Bool}

namespace InstrWrites

theorem reg {r : Reg} (h : InstrWrites i s t) (hw : permits i rs fs mem = true) (hr : r ∈ rs) (v : Byte) :
    InstrWrites i s (t.setReg r v) := by
  obtain ⟨hregs, -, -⟩ := permits_iff.1 hw
  exact h.setReg v (hregs r hr)

/-- P is changed by a function that keeps every flag but those i is permitted to write. -/
theorem flags {g : Byte → Byte} (h : InstrWrites i s t) (hw : permits i rs fs mem = true)
    (hg : ∀ p f, flagOf p .u = true → f ∉ fs → flagOf (g p) f = flagOf p f) : InstrWrites i s (t.mapP g) := by
  obtain ⟨-, hflags, -⟩ := permits_iff.1 hw
  exact h.mapP fun p f hu hf => hg p f hu fun hmem => hf (hflags f hmem)

theorem zn (h : InstrWrites i s t) (hw : permits i rs fs mem = true) (hz : .z ∈ fs) (hn : .n ∈ fs) (v : Byte) :
    InstrWrites i s (t.setZN v) :=
  h.flags hw fun p f _ hf => by
    rw [flagOf_withZN, if_neg (ne_of_mem_of_not_mem hn hf).symm, if_neg (ne_of_mem_of_not_mem hz hf).symm]

theorem cell (h : InstrWrites i s t) (hw : permits i rs fs true = true) (a : Nat) (v : Byte) :
    InstrWrites i s (t.poke a v) := by
  obtain ⟨-, -, hmem⟩ := permits_iff.1 hw
  exact h.poke a v (hmem rfl)

/-- The common tail of an instruction that does not transfer control (R82). -/
theorem finish {tm : Timing} (h : InstrWrites i s t) (ht : rowOf i tm = true) (c : Bool) :
    InstrEffect i s (finish tm c t) := by
  obtain ⟨hlen, hlo, hhi⟩ := rowOf_iff.1 ht
  refine .goTo h _ _ ⟨by omega, le_trans ?_ hhi⟩ fun _ => by rw [hlen]
  cases c <;> simp

theorem transfer {base : Nat} (h : InstrWrites i s t) (hb : transferCost i base = true) (w : Word) :
    InstrEffect i s (t.goTo w base) := by
  obtain ⟨hi, hn⟩ := transferCost_iff.1 hb
  exact .goTo h w base hn fun hi' => absurd hi hi'

end InstrWrites

/-- An instruction that completes has written only what it is listed as a writer of, and PC and CYC as its row of R66 says. -/
theorem SharedOp.effect {o : State → Host.Outcome State Fault Refusal} {s' : State} (ho : SharedOp i o)
    (h : o s = .next s') : InstrEffect i s s' := by
  have start : InstrWrites i s s := .refl
  cases ho with
  | load r src ht hw =>
    obtain ⟨v, c, -, rfl⟩ := load_eq_next_iff.1 h
    exact ((start.reg hw (by simp) v).zn hw (by simp) (by simp) v).finish ht c
  | store r m ht hw =>
    obtain ⟨ea, c, -, -, rfl⟩ := store_eq_next_iff.1 h
    exact (start.cell hw _ _).finish ht c
  | transfer src dst ht hw =>
    cases h
    exact ((start.reg hw (by simp) _).zn hw (by simp) (by simp) _).finish ht false
  | txs ht hw =>
    cases h
    exact (start.reg hw (by simp) _).finish ht false
  | adc src ht hw =>
    obtain ⟨m, c, -, rfl⟩ := adc_eq_next_iff.1 h
    exact ((start.reg hw (by simp) _).flags hw (by simp +contextual)).finish ht c
  | sbc src ht hw =>
    obtain ⟨m, c, -, rfl⟩ := sbc_eq_next_iff.1 h
    exact ((start.reg hw (by simp) _).flags hw (by simp +contextual)).finish ht c
  | logic f src ht hw =>
    obtain ⟨m, c, -, rfl⟩ := logic_eq_next_iff.1 h
    exact ((start.reg hw (by simp) _).zn hw (by simp) (by simp) _).finish ht c
  | bit src ht hw =>
    obtain ⟨m, c, -, rfl⟩ := bit_eq_next_iff.1 h
    exact (start.flags hw (by simp +contextual)).finish ht c
  | compare r src ht hw =>
    obtain ⟨m, c, -, rfl⟩ := compareWith_eq_next_iff.1 h
    exact (start.flags hw (by simp +contextual)).finish ht c
  | shiftAcc f ht hw =>
    cases h
    exact (((start.reg hw (by simp) _).flags hw (by simp +contextual)).zn hw (by simp) (by simp) _).finish ht false
  | shiftMem f m ht hw =>
    obtain ⟨ea, c, -, -, rfl⟩ := shift_mem_eq_next_iff.1 h
    exact (((start.cell hw _ _).flags hw (by simp +contextual)).zn hw (by simp) (by simp) _).finish ht false
  | addToCell k m ht hw =>
    obtain ⟨ea, c, -, -, rfl⟩ := addToCell_eq_next_iff.1 h
    exact ((start.cell hw _ _).zn hw (by simp) (by simp) _).finish ht false
  | addToReg k r ht hw =>
    cases h
    exact ((start.reg hw (by simp) _).zn hw (by simp) (by simp) _).finish ht false
  | branch cond hc d hi =>
    cases (branch_eq_next _ _ _).symm.trans h
    refine .goTo start _ _ ?_ fun hi' => absurd hi hi'
    split_ifs <;> omega
  | jump m hb =>
    obtain ⟨w, -, rfl⟩ := jump_eq_next_iff.1 h
    exact start.transfer hb w
  | jsr w hb hw =>
    obtain ⟨-, -, rfl⟩ := callSubroutine_absolute_eq_next_iff.1 h
    exact ((((start.cell hw _ _).reg hw (by simp) _).cell hw _ _).reg hw (by simp) _).transfer hb w
  | rts hb hw =>
    obtain ⟨-, -, rfl⟩ := returnFromSubroutine_eq_next_iff.1 h
    exact ((start.reg hw (by simp) _).reg hw (by simp) _).transfer hb _
  | rti hb hw =>
    obtain ⟨-, -, -, rfl⟩ := returnFromInterrupt_eq_next_iff.1 h
    exact ((((start.reg hw (by simp) _).reg hw (by simp) _).reg hw (by simp) _).flags hw
      (flagOf_statusByte_of_unlisted _)).transfer hb _
  | push v hv ht hw =>
    obtain ⟨-, rfl⟩ := pushByte_eq_next_iff.1 h
    exact ((start.cell hw _ _).reg hw (by simp) _).finish ht false
  | pla ht hw =>
    obtain ⟨-, rfl⟩ := pullByte_eq_next_iff.1 h
    exact (((start.reg hw (by simp) _).reg hw (by simp) _).zn hw (by simp) (by simp) _).finish ht false
  | plp ht hw =>
    obtain ⟨-, rfl⟩ := pullByte_eq_next_iff.1 h
    exact ((start.reg hw (by simp) _).flags hw (flagOf_statusByte_of_unlisted _)).finish ht false
  | writeFlag f v ht hw =>
    cases h
    exact (start.flags hw (by simp +contextual)).finish ht false
  | idle ht =>
    cases h
    exact start.finish ht false

theorem exec_effect (h : exec i s = .next t) : InstrEffect i s t := (exec_sharedOp i).effect h

/-! ### What such writes leave alone -/

namespace InstrWrites

theorem pc_cyc_cfg (h : InstrWrites i s t) : t.pc = s.pc ∧ t.cyc = s.cyc ∧ t.cfg = s.cfg := by
  induction h with
  | refl => exact ⟨rfl, rfl, rfl⟩
  | setReg v _ _ ih => simpa using ih
  | mapP _ _ ih => exact ih
  | poke a v _ _ ih => exact ih

theorem reg_eq {r : Reg} (hr : ¬ WritesReg r i) (h : InstrWrites i s t) : t.reg r = s.reg r := by
  induction h with
  | refl => rfl
  | setReg v hq _ ih => rw [State.setReg_reg, if_neg (by rintro rfl; exact hr hq), ih]
  | mapP _ _ ih => rw [State.mapP_reg, ih]
  | poke a v _ _ ih => rw [State.poke_reg, ih]

/-- U is a flag no instruction is listed as a writer of, so it is 1 all the way. -/
theorem flag_eq (hu : flagOf s.p .u = true) (h : InstrWrites i s t) :
    flagOf t.p .u = true ∧ ∀ f, mnemonic i ∉ flagWriters f → flagOf t.p f = flagOf s.p f := by
  induction h with
  | refl => exact ⟨hu, fun _ _ => rfl⟩
  | setReg v _ _ ih => simpa using ih
  | mapP hg _ ih =>
    obtain ⟨ihu, ih⟩ := ih
    exact ⟨(hg _ .u ihu List.not_mem_nil).trans ihu, fun f hf => (hg _ f ihu hf).trans (ih f hf)⟩
  | poke a v _ _ ih => exact ih

theorem cells_eq (hm : ¬ WritesMemory i) (h : InstrWrites i s t) : t.cells = s.cells := by
  induction h with
  | refl => rfl
  | setReg v _ _ ih => rw [State.setReg_cells, ih]
  | mapP _ _ ih => exact ih
  | poke a v hm' _ _ => exact absurd hm' hm

end InstrWrites

/-- READ depends on the cells, the table of aliases and N alone (R31). -/
theorem State.busRead_congr {s t : State} (hcells : t.cells = s.cells) (hrefs : t.refs = s.refs) (hcfg : t.cfg = s.cfg)
    (a : Nat) : t.busRead a = s.busRead a := by
  simp only [State.busRead, State.peek, State.ref, hcells, hrefs, hcfg]

end Effects

section Simulations

/-- Two states that give an instruction the same to read: parameters, registers but CYC, and the byte at every address. -/
structure SameInputs (s t : State) : Prop where
  cfg : s.cfg = t.cfg
  a : s.a = t.a
  x : s.x = t.x
  y : s.y = t.y
  sp : s.sp = t.sp
  pc : s.pc = t.pc
  p : s.p = t.p
  bytes : ∀ addr, addr < s.cfg.busSize → s.peek addr = t.peek addr

namespace SameInputs

variable {s t : State} (h : SameInputs s t)
include h

theorem reg (r : Reg) : s.reg r = t.reg r := by
  cases r
  · exact h.a
  · exact h.x
  · exact h.y
  · exact h.sp

theorem flag (f : Flag) : s.flag f = t.flag f := congrArg (flagOf · f) h.p

theorem memRead (addr : Word) : memRead addr s = memRead addr t := by
  have hN := congrArg Config.busSize h.cfg
  by_cases ha : addr.toNat < s.cfg.busSize
  · rw [memRead_ok ha, memRead_ok (hN ▸ ha), h.bytes _ ha]
  · rw [memRead_eq_error_iff.2 ⟨ha, rfl⟩, memRead_eq_error_iff.2 ⟨hN ▸ ha, rfl⟩]

theorem zeroPagePointer (z : Byte) : zeroPagePointer z s = zeroPagePointer z t := by
  simp only [Machine.zeroPagePointer, h.memRead]

theorem effAddr (m : MemMode) : effAddr m s = effAddr m t := by
  cases m <;> simp only [Machine.effAddr, h.x, h.y, h.zeroPagePointer]

theorem readSource (src : Source) : readSource src s = readSource src t := by
  cases src <;> simp only [Machine.readSource, h.effAddr, h.memRead]

theorem resolvePlace (pl : Place) : resolvePlace pl s = resolvePlace pl t := by
  cases pl <;> simp only [Machine.resolvePlace, h.effAddr]

theorem readLoc (loc : Loc) : readLoc loc s = readLoc loc t := by
  cases loc <;> simp only [Machine.readLoc, h.a, h.memRead]

theorem jumpTarget (m : JumpMode) : jumpTarget m s = jumpTarget m t := by
  cases m <;> simp only [Machine.jumpTarget, h.memRead]

theorem fetchOperands (op : Byte) : fetchOperands op s = fetchOperands op t := by
  simp only [Machine.fetchOperands, h.pc, h.memRead]

theorem fetch : fetch s = fetch t := by
  simp only [Machine.fetch, h.pc, h.memRead, h.fetchOperands]

end SameInputs

/-- Two results agree up to a relation of values: the same fault, or values it relates. -/
def resultsAgree {α : Type} (rel : α → α → Prop) : Except Fault α → Except Fault α → Prop
  | .ok a, .ok b => rel a b
  | .error f, .error g => f = g
  | _, _ => False

section Results

variable {α β : Type} {R : α → α → Prop} {Q : β → β → Prop}

theorem resultsAgree_bind {x y : Except Fault α} {f g : α → Except Fault β} (hx : resultsAgree R x y)
    (hf : ∀ a b, R a b → resultsAgree Q (f a) (g b)) : resultsAgree Q (x >>= f) (y >>= g) := by
  cases x <;> cases y
  · exact hx
  · exact hx.elim
  · exact hx.elim
  · exact hf _ _ hx

theorem resultsAgree_bind_of_eq {x y : Except Fault α} {f g : α → Except Fault β} (hx : x = y)
    (hf : ∀ a, resultsAgree Q (f a) (g a)) : resultsAgree Q (x >>= f) (y >>= g) := by
  subst hx
  cases x
  · rfl
  · exact hf _

theorem outcomesAgree_outcome {fin : State → State → Prop} {x y : Except Fault State} (h : resultsAgree fin x y) :
    outcomesAgree fin (outcome x) (outcome y) := by
  cases x <;> cases y <;> exact h

end Results

/-- A simulation of the CPU: `mid` relates states while an instruction runs, gives both the same inputs and is kept by every
elementary write; `fin` relates them after the write of PC and CYC that ends it. -/
structure Simulation (mid fin : State → State → Prop) : Prop where
  inputs : ∀ {s t}, mid s t → SameInputs s t
  setReg : ∀ {s t} (r : Reg) (v : Byte), mid s t → mid (s.setReg r v) (t.setReg r v)
  mapP : ∀ {s t} (g : Byte → Byte), mid s t → mid (s.mapP g) (t.mapP g)
  poke : ∀ {s t} {a : Nat} (v : Byte), a < s.cfg.busSize → mid s t → mid (s.poke a v) (t.poke a v)
  goTo : ∀ {s t} (w : Word) (n : Nat), mid s t → fin (s.goTo w n) (t.goTo w n)

namespace Simulation

variable {mid fin : State → State → Prop} (S : Simulation mid fin) {s t : State}
include S

theorem finish (tm : Timing) (c : Bool) (h : mid s t) : fin (finish tm c s) (finish tm c t) := by
  unfold Machine.finish
  rw [(S.inputs h).pc]
  exact S.goTo _ _ h

theorem setZN (v : Byte) (h : mid s t) : mid (s.setZN v) (t.setZN v) := S.mapP _ h

theorem memWrite (addr : Word) (v : Byte) (h : mid s t) : resultsAgree mid (memWrite addr v s) (memWrite addr v t) := by
  have hN := congrArg Config.busSize (S.inputs h).cfg
  by_cases ha : addr.toNat < s.cfg.busSize
  · rw [memWrite_ok ha, memWrite_ok (hN ▸ ha)]
    exact S.poke v ha h
  · rw [memWrite_eq_error_iff.2 ⟨ha, rfl⟩, memWrite_eq_error_iff.2 ⟨hN ▸ ha, rfl⟩]
    rfl

theorem writeLoc (loc : Loc) (v : Byte) (h : mid s t) : resultsAgree mid (writeLoc loc v s) (writeLoc loc v t) := by
  cases loc with
  | regA => exact S.setReg .a v h
  | cell ea => exact S.memWrite ea v h

theorem push (v : Byte) (h : mid s t) : resultsAgree mid (push v s) (push v t) := by
  unfold Machine.push
  rw [(S.inputs h).sp]
  exact resultsAgree_bind (S.memWrite _ v h) fun _ _ h' => S.setReg .sp _ h'

theorem pop (h : mid s t) : resultsAgree (fun a b => a.1 = b.1 ∧ mid a.2 b.2) (pop s) (pop t) := by
  unfold Machine.pop
  rw [(S.inputs h).sp]
  exact resultsAgree_bind_of_eq ((S.inputs h).memRead _) fun _ => ⟨rfl, S.setReg .sp _ h⟩

/-- A meaning that reads an operand and then makes elementary writes. -/
theorem afterRead {src : Source} {f g : Byte × Bool → Except Fault State} (h : mid s t)
    (hf : ∀ r, resultsAgree fin (f r) (g r)) :
    outcomesAgree fin (outcome (readSource src s >>= f)) (outcome (readSource src t >>= g)) :=
  outcomesAgree_outcome (resultsAgree_bind_of_eq ((S.inputs h).readSource src) hf)

theorem shift (f : Bool → Byte → Byte × Bool) (pl : Place) (tm : Timing) (h : mid s t) :
    outcomesAgree fin (shift f pl tm s) (shift f pl tm t) := by
  have hin := S.inputs h
  unfold Machine.shift
  rw [hin.flag]
  exact outcomesAgree_outcome (resultsAgree_bind_of_eq (hin.resolvePlace pl) fun loc =>
    resultsAgree_bind_of_eq (hin.readLoc loc) fun v =>
      resultsAgree_bind (S.writeLoc loc _ h) fun _ _ h' => S.finish tm false (S.setZN _ (S.mapP _ h')))

theorem pullByte {f : Byte → State → State} (hf : ∀ {s t} v, mid s t → mid (f v s) (f v t)) (tm : Timing) (h : mid s t) :
    outcomesAgree fin (pullByte f tm s) (pullByte f tm t) := by
  refine outcomesAgree_outcome (resultsAgree_bind (S.pop h) ?_)
  rintro ⟨v, s'⟩ ⟨_, t'⟩ ⟨rfl, h'⟩
  exact S.finish tm false (hf v h')

/-- Every instruction takes related states to outcomes that agree, whatever it is. -/
theorem sharedOp {i : Instr} {o : State → Host.Outcome State Fault Refusal} (ho : SharedOp i o) (h : mid s t) :
    outcomesAgree fin (o s) (o t) := by
  have hin := S.inputs h
  cases ho with
  | load r src ht hw => exact S.afterRead h fun ⟨v, c⟩ => S.finish _ c (S.setZN v (S.setReg r v h))
  | @store r m tm ht hw =>
    unfold store
    rw [hin.reg]
    exact outcomesAgree_outcome (resultsAgree_bind_of_eq (hin.effAddr m) fun ⟨ea, c⟩ =>
      resultsAgree_bind (S.memWrite ea _ h) fun _ _ h' => S.finish tm c h')
  | transfer src dst ht hw =>
    unfold transfer
    rw [hin.reg]
    exact S.finish _ false (S.setZN _ (S.setReg dst _ h))
  | txs ht hw =>
    simp only [hin.x]
    exact S.finish _ false (S.setReg .sp _ h)
  | adc src ht hw =>
    unfold adc
    rw [hin.a, hin.flag, hin.flag]
    exact S.afterRead h fun ⟨m, c⟩ => S.finish _ c (S.mapP _ (S.setReg .a _ h))
  | sbc src ht hw =>
    unfold sbc
    rw [hin.a, hin.flag, hin.flag]
    exact S.afterRead h fun ⟨m, c⟩ => S.finish _ c (S.mapP _ (S.setReg .a _ h))
  | logic f src ht hw =>
    unfold logic
    rw [hin.a]
    exact S.afterRead h fun ⟨m, c⟩ => S.finish _ c (S.setZN _ (S.setReg .a _ h))
  | bit src ht hw =>
    unfold bit
    rw [hin.a]
    exact S.afterRead h fun ⟨m, c⟩ => S.finish _ c (S.mapP _ h)
  | compare r src ht hw =>
    unfold compareWith
    rw [hin.reg]
    exact S.afterRead h fun ⟨m, c⟩ => S.finish _ c (S.mapP _ h)
  | shiftAcc f ht hw => exact S.shift f .acc _ h
  | shiftMem f m ht hw => exact S.shift f (.mem m) _ h
  | @addToCell k m tm ht hw =>
    exact outcomesAgree_outcome (resultsAgree_bind_of_eq (hin.effAddr m) fun ⟨ea, _⟩ =>
      resultsAgree_bind_of_eq (hin.memRead ea) fun v =>
        resultsAgree_bind (S.memWrite ea _ h) fun _ _ h' => S.finish tm false (S.setZN _ h'))
  | addToReg k r ht hw =>
    unfold addToReg
    rw [hin.reg]
    exact S.finish _ false (S.setZN _ (S.setReg r _ h))
  | branch cond hc d hi =>
    simp only [branch_eq_next, hc s t hin.p, branchTarget, branchNext, hin.pc]
    exact S.goTo _ _ h
  | jump m hb =>
    exact outcomesAgree_outcome (resultsAgree_bind_of_eq (hin.jumpTarget m) fun w => S.goTo w _ h)
  | jsr w hb hw =>
    unfold callSubroutine returnAddress
    rw [hin.pc, hin.cfg]
    exact outcomesAgree_outcome (resultsAgree_bind_of_eq rfl fun w =>
      resultsAgree_bind (S.push _ h) fun _ _ h1 => resultsAgree_bind (S.push _ h1) fun _ _ h2 => S.goTo w _ h2)
  | rts hb hw =>
    unfold returnFromSubroutine
    rw [hin.cfg]
    refine outcomesAgree_outcome (resultsAgree_bind (S.pop h) ?_)
    rintro ⟨lo, s1⟩ ⟨_, t1⟩ ⟨rfl, h1⟩
    refine resultsAgree_bind (S.pop h1) ?_
    rintro ⟨hi, s2⟩ ⟨_, t2⟩ ⟨rfl, h2⟩
    exact S.goTo _ _ h2
  | rti hb hw =>
    refine outcomesAgree_outcome (resultsAgree_bind (S.pop h) ?_)
    rintro ⟨p, s1⟩ ⟨_, t1⟩ ⟨rfl, h1⟩
    refine resultsAgree_bind (S.pop h1) ?_
    rintro ⟨lo, s2⟩ ⟨_, t2⟩ ⟨rfl, h2⟩
    refine resultsAgree_bind (S.pop h2) ?_
    rintro ⟨hi, s3⟩ ⟨_, t3⟩ ⟨rfl, h3⟩
    exact S.goTo _ _ (S.mapP _ h3)
  | push v hv ht hw =>
    simp only [hv s t hin.a hin.p]
    exact outcomesAgree_outcome (resultsAgree_bind (S.push _ h) fun _ _ h' => S.finish _ false h')
  | pla ht hw => exact S.pullByte (fun v h' => S.setZN v (S.setReg .a v h')) _ h
  | plp ht hw => exact S.pullByte (fun v h' => S.mapP (fun _ => statusByte v) h') _ h
  | writeFlag f v ht hw => exact S.finish _ false (S.mapP _ h)
  | idle ht => exact S.finish _ false h

/-- STEP fetches the same instruction in both, or the same failure. -/
theorem step (h : mid s t) : outcomesAgree fin (step s) (step t) := by
  unfold Machine.step
  rw [(S.inputs h).fetch]
  cases Machine.fetch t with
  | ok i => exact S.sharedOp (exec_sharedOp i) h
  | error f => rfl

end Simulation

theorem SameView.inputs {s t : State} (h : SameView s t) : SameInputs s t := { h with }

/-- A write shows at the same addresses in both states, as these share their pairs of addresses with one cell (R32). -/
theorem SameView.poke {s t : State} {a : Nat} (v : Byte) (ha : a < s.cfg.busSize) (h : SameView s t) :
    SameView (s.poke a v) (t.poke a v) :=
  { h with
    bytes := fun b hb => by simp only [State.peek_poke, h.aliases b a hb ha, h.bytes b hb] }

theorem SameView.setReg {s t : State} (r : Reg) (v : Byte) (h : SameView s t) :
    SameView (s.setReg r v) (t.setReg r v) := by
  cases r with
  | a => exact { h with a := rfl }
  | x => exact { h with x := rfl }
  | y => exact { h with y := rfl }
  | sp => exact { h with sp := rfl }

/-- No elementary write tells two states with the same view apart. -/
theorem sameView_simulation : Simulation SameView SameView where
  inputs h := h.inputs
  setReg r v h := h.setReg r v
  mapP g h := { h with p := congrArg g h.p }
  poke v ha h := h.poke v ha
  goTo w n h := { h with pc := rfl, cyc := by simp only [State.goTo_cyc, h.cyc, h.cfg] }

/-- s has CYC m, and t is s with n instead; the parameters are cfg. -/
def DifferInCyc (m n : Nat) (cfg : Config) (s t : State) : Prop :=
  s.cfg = cfg ∧ s.cyc = m ∧ t = { s with cyc := n }

/-- s and t differ in CYC only, and one cost has been added to m and to n to get there (R16). -/
def SameCost (m n : Nat) (cfg : Config) (s t : State) : Prop :=
  { s with cyc := 0 } = { t with cyc := 0 } ∧
    ∃ k, s.cyc = (m + k) % 2 ^ cfg.cycWidth ∧ t.cyc = (n + k) % 2 ^ cfg.cycWidth

/-- CYC is only ever added to: no elementary write reads it but the one that ends an instruction. -/
theorem differInCyc_simulation (m n : Nat) (cfg : Config) : Simulation (DifferInCyc m n cfg) (SameCost m n cfg) where
  inputs := by
    rintro s _ ⟨rfl, rfl, rfl⟩
    exact ⟨rfl, rfl, rfl, rfl, rfl, rfl, rfl, fun _ _ => rfl⟩
  setReg := by
    rintro s _ r v ⟨rfl, rfl, rfl⟩
    exact ⟨State.setReg_cfg s r v, State.setReg_cyc s r v, by cases r <;> rfl⟩
  mapP := by
    rintro s _ g ⟨rfl, rfl, rfl⟩
    exact ⟨rfl, rfl, rfl⟩
  poke := by
    rintro s _ a v - ⟨rfl, rfl, rfl⟩
    exact ⟨rfl, rfl, rfl⟩
  goTo := by
    rintro s _ w k ⟨rfl, rfl, rfl⟩
    exact ⟨rfl, k, rfl, rfl⟩

end Simulations

section Faults

/-- Every fault of x is a BUS_ERROR of an address at or above n (R212). -/
def OnlyBusErrors {α : Type} (n : Nat) (x : Except Fault α) : Prop :=
  ∀ f, x = .error f → ∃ a : Word, f = .busError a ∧ n ≤ a.toNat

/-- o completes or is a BUS_ERROR of an address at or above n. -/
def CompletesOrBusError (n : Nat) (o : Host.Outcome State Fault Refusal) : Prop :=
  (∃ s', o = .next s') ∨ ∃ a : Word, o = .fault (.busError a) ∧ n ≤ a.toNat

theorem push_cfg {v : Byte} {s t : State} (h : push v s = .ok t) : t.cfg = s.cfg := by
  obtain ⟨-, rfl⟩ := push_eq_ok_iff.1 h
  simp

theorem pop_cfg {v : Byte} {s t : State} (h : pop s = .ok (v, t)) : t.cfg = s.cfg := by
  obtain ⟨-, -, rfl⟩ := pop_eq_ok_iff.1 h
  simp

namespace OnlyBusErrors

variable {α β : Type} {n : Nat} {s : State}

theorem ok (a : α) : OnlyBusErrors n (.ok a) := nofun

theorem bind {x : Except Fault α} {f : α → Except Fault β} (hx : OnlyBusErrors n x)
    (hf : ∀ a, x = .ok a → OnlyBusErrors n (f a)) : OnlyBusErrors n (x >>= f) := by
  intro e he
  rcases bind_eq_error_iff.1 he with h | ⟨a, ha, h⟩
  · exact hx e h
  · exact hf a ha e h

theorem outcome {x : Except Fault State} (hx : OnlyBusErrors n x) : CompletesOrBusError n (outcome x) := by
  cases x with
  | ok s' => exact .inl ⟨s', rfl⟩
  | error f =>
    obtain ⟨a, rfl, ha⟩ := hx f rfl
    exact .inr ⟨a, rfl, ha⟩

theorem memRead (addr : Word) : OnlyBusErrors s.cfg.busSize (memRead addr s) := by
  intro f hf
  obtain ⟨ha, rfl⟩ := memRead_eq_error_iff.1 hf
  exact ⟨addr, rfl, Nat.le_of_not_lt ha⟩

theorem memWrite (addr : Word) (v : Byte) : OnlyBusErrors s.cfg.busSize (memWrite addr v s) := by
  intro f hf
  obtain ⟨ha, rfl⟩ := memWrite_eq_error_iff.1 hf
  exact ⟨addr, rfl, Nat.le_of_not_lt ha⟩

theorem zeroPagePointer (z : Byte) : OnlyBusErrors s.cfg.busSize (zeroPagePointer z s) :=
  (memRead _).bind fun _ _ => (memRead _).bind fun _ _ => ok _

theorem effAddr (m : MemMode) : OnlyBusErrors s.cfg.busSize (effAddr m s) := by
  cases m with
  | zeroPage d | zeroPageX d | zeroPageY d | absolute w | absoluteX w | absoluteY w => exact ok _
  | indirectX d | indirectY d => exact (zeroPagePointer _).bind fun _ _ => ok _

theorem readSource (src : Source) : OnlyBusErrors s.cfg.busSize (readSource src s) := by
  cases src with
  | imm v => exact ok _
  | mem m => exact (effAddr m).bind fun _ _ => (memRead _).bind fun _ _ => ok _

theorem jumpTarget (m : JumpMode) : OnlyBusErrors s.cfg.busSize (jumpTarget m s) := by
  cases m with
  | absolute w => exact ok w
  | indirect w => exact (memRead _).bind fun _ _ => (memRead _).bind fun _ _ => ok _

theorem push (v : Byte) : OnlyBusErrors s.cfg.busSize (push v s) := (memWrite _ v).bind fun _ _ => ok _

theorem pop : OnlyBusErrors s.cfg.busSize (pop s) := (memRead _).bind fun _ _ => ok _

/-- Every instruction completes or is a BUS_ERROR (R212). -/
theorem sharedOp {i : Instr} {o : State → Host.Outcome State Fault Refusal} (ho : SharedOp i o)
    (s : State) : CompletesOrBusError s.cfg.busSize (o s) := by
  cases ho with
  | load _ src _ _ | adc src _ _ | sbc src _ _ | logic _ src _ _ | bit src _ _ | compare _ src _ _ =>
    exact ((readSource src).bind fun _ _ => ok _).outcome
  | store r m _ _ => exact ((effAddr m).bind fun _ _ => (memWrite _ _).bind fun _ _ => ok _).outcome
  | shiftMem f m _ _ =>
    exact (((effAddr m).bind fun _ _ => ok _).bind fun
      | .regA, _ => ok _
      | .cell ea, _ => (memRead _).bind fun _ _ => (memWrite _ _).bind fun _ _ => ok _).outcome
  | addToCell k m _ _ =>
    exact ((effAddr m).bind fun _ _ => (memRead _).bind fun _ _ => (memWrite _ _).bind fun _ _ => ok _).outcome
  | jump m _ => exact ((jumpTarget m).bind fun _ _ => ok _).outcome
  | jsr w _ _ =>
    exact ((jumpTarget _).bind fun _ _ => (push _).bind fun s1 h1 => (push_cfg h1 ▸ push _).bind fun _ _ => ok _).outcome
  | rts _ _ =>
    exact (pop.bind fun ⟨_, s1⟩ h1 => (pop_cfg h1 ▸ pop).bind fun _ _ => ok _).outcome
  | rti _ _ =>
    exact (pop.bind fun ⟨_, s1⟩ h1 => (pop_cfg h1 ▸ pop).bind fun ⟨_, s2⟩ h2 =>
      (pop_cfg h1 ▸ pop_cfg h2 ▸ pop).bind fun _ _ => ok _).outcome
  | push v _ _ _ => exact ((push _).bind fun _ _ => ok _).outcome
  | pla _ _ | plp _ _ => exact (pop.bind fun _ _ => ok _).outcome
  | branch cond _ d _ => exact .inl ⟨_, branch_eq_next _ _ _⟩
  | transfer | txs | shiftAcc | addToReg | writeFlag | idle => exact .inl ⟨_, rfl⟩

end OnlyBusErrors

theorem exec_completesOrBusError (i : Instr) (s : State) : CompletesOrBusError s.cfg.busSize (exec i s) :=
  OnlyBusErrors.sharedOp (exec_sharedOp i) s

/-- Every byte is a defined opcode or one of the 105 undefined ones (R62, R64). -/
theorem template_isSome_or_undefined : ∀ op : Byte, (template op).isSome ∨ op ∈ undefinedOpcodes := by decide

/-- The faults of a fetch after its opcode byte (R216). -/
theorem fetchOperands_error {op : Byte} {s : State} {f : Fault} (h : fetchOperands op s = .error f) :
    (f = .unknownOpcode op ∧ op ∈ undefinedOpcodes) ∨ ∃ a : Word, f = .busError a ∧ s.cfg.busSize ≤ a.toNat := by
  unfold fetchOperands at h
  split at h
  next ht =>
    cases h
    exact .inl ⟨rfl, (template_isSome_or_undefined op).resolve_left (by simp [ht])⟩
  next => cases h
  next => exact .inr ((OnlyBusErrors.memRead _).bind (fun _ _ => .ok _) f h)
  next =>
    exact .inr ((OnlyBusErrors.memRead _).bind (fun _ _ => (OnlyBusErrors.memRead _).bind fun _ _ => .ok _) f h)

/-- What can stop a step: a BUS_ERROR, or an undefined opcode byte at PC (R64, R210, R216). -/
theorem fetch_error {s : State} {f : Fault} (h : fetch s = .error f) :
    (∃ op ∈ undefinedOpcodes, f = .unknownOpcode op) ∨ ∃ a : Word, f = .busError a ∧ s.cfg.busSize ≤ a.toNat := by
  rcases bind_eq_error_iff.1 h with hpc | ⟨op, -, hop⟩
  · exact .inr (OnlyBusErrors.memRead _ f hpc)
  · exact (fetchOperands_error hop).imp_left fun ⟨hf, hu⟩ => ⟨op, hu, hf⟩

/-- On the full bus a step completes or stops on an undefined opcode byte (R51, R64, R212). -/
theorem step_cases_of_fullBus {s : State} (hN : s.cfg.busSize = 65536) :
    (∃ s', step s = .next s') ∨ ∃ op ∈ undefinedOpcodes, step s = .fault (.unknownOpcode op) := by
  have noBusError : ∀ a : Word, ¬ s.cfg.busSize ≤ a.toNat := fun a => by have := a.isLt; omega
  unfold step
  cases hf : fetch s with
  | ok i => exact .inl ((exec_completesOrBusError i s).resolve_right fun ⟨a, _, ha⟩ => noBusError a ha)
  | error f =>
    obtain ⟨op, hop, rfl⟩ := (fetch_error hf).resolve_right fun ⟨a, _, ha⟩ => noBusError a ha
    exact .inr ⟨op, hop, rfl⟩

theorem run_succ_of_next {M : Host.Core} {k : Nat} {s t : M.State} (h : M.step s = .next t) :
    M.run (k + 1) s = M.run k t := by rw [Host.Core.run, h]

theorem run_succ_of_fault {M : Host.Core} {k : Nat} {s : M.State} {f : M.Fault} (h : M.step s = .fault f) :
    M.run (k + 1) s = .fault f := by rw [Host.Core.run, h]

/-- A run on the full bus goes on through states that keep the invariant, the parameters and the table of aliases, or has
stopped on an undefined opcode byte. -/
theorem run_cases_of_fullBus (k : Nat) {s : State} (hs : s.Inv) (hN : s.cfg.busSize = 65536) :
    (∃ s' : State, Sys2Proof.core.run k s = .next s' ∧ s'.Inv ∧ s'.cfg = s.cfg ∧ s'.refs = s.refs) ∨
      ∃ op ∈ undefinedOpcodes, Sys2Proof.core.run k s = .fault (Fault.unknownOpcode op) := by
  induction k generalizing s with
  | zero => exact .inl ⟨s, rfl, hs, rfl, rfl⟩
  | succ k ih =>
    rcases step_cases_of_fullBus hN with ⟨t, ht⟩ | ⟨op, hop, hf⟩
    · have hw := step_cpuWrites ht
      obtain ⟨hrefs, hcfg⟩ := hw.refs_cfg
      rw [run_succ_of_next (M := Sys2Proof.core) ht, ← hrefs, ← hcfg]
      exact ih (hw.inv hs) (hcfg ▸ hN)
    · exact .inr ⟨op, hop, run_succ_of_fault (M := Sys2Proof.core) hf⟩

end Faults

section StatusAndStack

/-- Every bit of P is a flag's (R13). -/
theorem Flag.exists_bit_eq {k : Nat} (hk : k < 8) : ∃ f : Flag, f.bit = k := by
  interval_cases k
  exacts [⟨.c, rfl⟩, ⟨.z, rfl⟩, ⟨.i, rfl⟩, ⟨.d, rfl⟩, ⟨.b, rfl⟩, ⟨.u, rfl⟩, ⟨.v, rfl⟩, ⟨.n, rfl⟩]

theorem Flag.bit_eq_bit {f g : Flag} : f.bit = g.bit ↔ f = g := ⟨Flag.bit_inj, congrArg _⟩

/-- Bit 7 of a byte, in numbers. -/
theorem getLsbD_seven (v : Byte) : v.getLsbD 7 = decide (128 ≤ v.toNat) := BitVec.msb_eq_decide v

theorem beq_zero_eq_decide (v : Byte) : (v == 0) = decide (v.toNat = 0) := by
  rw [Bool.eq_iff_iff, beq_iff_eq, decide_eq_true_eq]
  exact BitVec.toNat_eq

/-- The reset value of P has U = 1 and every other flag 0 (R230). -/
theorem flagOf_reset (f : Flag) : flagOf 0x20 f = decide (f = .u) := by cases f <;> decide

/-! ### The stack page -/

theorem pushSlot_zero (s : State) : pushSlot s 0 = 0x0100 + s.sp.toNat := by
  have := s.sp.isLt
  unfold pushSlot
  omega

theorem popSlot_one (s : State) : popSlot s 1 = 0x0100 + (s.sp + 1).toNat := by
  simp [popSlot, BitVec.toNat_add]

/-- A write through an existing address, however registers, P, PC and CYC change with it (R32). -/
theorem storesByte_of_cells {s s' : State} {a : Nat} {v : Byte} (hcfg : s'.cfg = s.cfg) (hrefs : s'.refs = s.refs)
    (hcells : s'.cells = s.cells.setCell (s.ref a) v) : StoresByte a v s s' := by
  have hpeek : ∀ b, s'.peek b = if s.ref b = s.ref a then v else s.peek b := fun b => by
    simp only [State.peek, State.ref, hrefs, hcells]
    exact State.peek_poke s a b v
  refine ⟨hcfg, hrefs, fun c => by rw [hcells, Memory.cell_setCell], fun b hb hlt => ?_, fun b hb => ?_⟩
  · rw [State.busRead_some (hcfg ▸ hlt), hpeek, if_pos hb]
  · simp only [State.busRead, hcfg, hpeek, if_neg hb]

theorem keepsRegs_setReg (s : State) (r : Reg) (v : Byte) : KeepsRegs [r] s (s.setReg r v) := fun q hq => by
  rw [State.setReg_reg, if_neg (by simpa using hq)]

theorem ofNat_stackAddr (sp : Byte) : BitVec.ofNat 16 (0x0100 + sp.toNat) = stackAddr sp := by
  rw [← stackAddr_toNat, BitVec.ofNat_toNat, BitVec.setWidth_eq]

theorem push_eq_error {s : State} {v : Byte} (h : s.cfg.busSize ≤ 0x0100 + s.sp.toNat) :
    push v s = .error (.busError (stackAddr s.sp)) :=
  bind_eq_error_iff.2 (.inl (memWrite_eq_error_iff.2 ⟨by rw [stackAddr_toNat]; omega, rfl⟩))

theorem pop_eq_error {s : State} (h : s.cfg.busSize ≤ 0x0100 + (s.sp + 1).toNat) :
    pop s = .error (.busError (stackAddr (s.sp + 1))) :=
  bind_eq_error_iff.2 (.inl (memRead_eq_error_iff.2 ⟨by rw [stackAddr_toNat]; omega, rfl⟩))

theorem busRead_eq_some_iff {s : State} {a : Nat} {b : Byte} :
    s.busRead a = some b ↔ a < s.cfg.busSize ∧ b = s.peek a := by
  simp [State.busRead, eq_comm]

end StatusAndStack

/-- Settles O43, by induction on the number of steps. -/
theorem runsStopOnlyOnUndefinedOpcodes : Obligations.RunsStopOnlyOnUndefinedOpcodes := by
  intro k s hs hN
  rcases run_cases_of_fullBus k hs hN with ⟨t, ht, hinv, hcfg, hrefs⟩ | ⟨op, hop, hf⟩
  · rw [ht]
    exact ⟨by rintro s' ⟨⟩; exact ⟨hinv, hcfg, hrefs⟩, nofun, nofun⟩
  · rw [hf]
    exact ⟨nofun, by rintro f ⟨⟩; exact ⟨op, hop, rfl⟩, nofun⟩

/-- Settles O44: to have the same view is a simulation of the CPU by itself. -/
theorem mirroringIsTransparentToTheCpu : Obligations.MirroringIsTransparentToTheCpu :=
  fun _ _ h => sameView_simulation.step h

/-- Settles O13: a push is one write through the slot SP names, a pop one read of the next slot. -/
theorem pushAndPopUseTheStackPage : Obligations.PushAndPopUseTheStackPage := by
  intro s v
  rw [pushSlot_zero, popSlot_one, ofNat_stackAddr, ofNat_stackAddr]
  refine ⟨fun h => ?_, push_eq_error, fun b hb => ?_, pop_eq_error⟩
  · refine ⟨_, push_eq_ok_iff.2 ⟨h, rfl⟩, storesByte_of_cells (by simp) (by simp) (by simp), ?_,
      keepsRegs_setReg (s.poke _ v) .sp _, by simp, by simp, by simp⟩
    simp [BitVec.toNat_sub, Nat.add_comm]
  · obtain ⟨ha, rfl⟩ := busRead_eq_some_iff.1 hb
    refine ⟨_, pop_eq_ok_iff.2 ⟨ha, rfl, rfl⟩, ⟨by simp, by simp, by simp, ?_⟩, ?_, keepsRegs_setReg s .sp _,
      by simp, by simp, by simp⟩
    · exact State.busRead_congr (by simp) (by simp) (by simp)
    · simp [BitVec.toNat_add]

/-- Settles O34: a completed instruction is a sequence of writes it is listed for, and none writes U. -/
theorem flagsChangeOnlyByTheirWriters : Obligations.FlagsChangeOnlyByTheirWriters := by
  intro i s s' f hu h hne
  obtain ⟨hw, w, n, -, -⟩ := exec_effect h
  by_contra hf
  exact hne ((hw.flag_eq hu).2 f hf)

/-- Settles O35, by the same sequence of writes. -/
theorem registersChangeOnlyByTheirWriters : Obligations.RegistersChangeOnlyByTheirWriters := by
  intro i s s' r h hne
  obtain ⟨hw, w, n, -, -⟩ := exec_effect h
  by_contra hr
  exact hne ((State.goTo_reg _ _ _ _).trans (hw.reg_eq hr))

/-- Settles O36, by the same sequence of writes: without a write of a cell READ answers as before. -/
theorem onlyStoresAndPushesChangeMemory : Obligations.OnlyStoresAndPushesChangeMemory := by
  intro i s s' h hm
  obtain ⟨hrefs, hcfg⟩ := (exec_cpuWrites h).refs_cfg
  obtain ⟨hw, w, n, -, -⟩ := exec_effect h
  have hcells := hw.cells_eq hm
  exact ⟨hcells, State.busRead_congr hcells hrefs hcfg⟩

/-- Settles O37: PC is written once, at the end, past the length of the row of R66. -/
theorem pcMovesPastTheInstruction : Obligations.PcMovesPastTheInstruction := by
  intro i s s' h hi
  obtain ⟨hw, w, n, -, hpc⟩ := exec_effect h
  obtain ⟨hpc', -, -⟩ := hw.pc_cyc_cfg
  rw [State.goTo_pc, hpc hi, hpc', BitVec.toNat_add, BitVec.toNat_ofNat, Nat.add_mod_mod]

/-- Settles O38: CYC is written once, at the end, by the cost of the row of R66 or of the branch. -/
theorem everyInstructionCostsTwoToSevenCycles : Obligations.EveryInstructionCostsTwoToSevenCycles := by
  intro i s s' h
  obtain ⟨hw, w, n, ⟨hlo, hhi⟩, -⟩ := exec_effect h
  obtain ⟨-, hcyc, hcfg⟩ := hw.pc_cyc_cfg
  exact ⟨n, hlo, hhi, by rw [State.goTo_cyc, hcyc, hcfg]⟩

/-- Settles O45: to differ in CYC is a simulation of the CPU by itself. -/
theorem nothingDependsOnCyc : Obligations.NothingDependsOnCyc :=
  fun s n => (differInCyc_simulation s.cyc n s.cfg).step ⟨rfl, rfl, rfl⟩

/-- Settles O12: every bit of P below bit 8 is a flag's, so the flag laws say what each write does to it. -/
theorem statusByteWrites : Obligations.StatusByteWrites := by
  intro p v
  refine ⟨⟨?_, ?_, fun f hz hn => ?_⟩, fun k hk => ?_, fun f b k hk => ?_⟩
  · rw [flagOf_withZN, if_neg (by decide), if_pos rfl, beq_zero_eq_decide]
  · rw [flagOf_withZN, if_pos rfl, getLsbD_seven]
  · rw [flagOf_withZN, if_neg hn, if_neg hz]
  · obtain ⟨g, rfl⟩ := Flag.exists_bit_eq hk
    refine (flagOf_statusByte v g).trans ?_
    rw [show (5 : Nat) = Flag.u.bit from rfl]
    simp only [Flag.bit_eq_bit]
    by_cases hg : g = .u <;> simp [hg, flagOf]
  · obtain ⟨g, rfl⟩ := Flag.exists_bit_eq hk
    simp only [Flag.bit_eq_bit]
    exact flagOf_withFlag f g b p

/-- Settles O53, field by field. -/
theorem resetAndCreationValues : Obligations.ResetAndCreationValues := by
  refine ⟨fun s => ⟨s.resetRegs, rfl, rfl, flagOf_reset, ?_⟩, fun cfg image => ⟨rfl, rfl, rfl, fun _ => rfl⟩, rfl⟩
  exact ⟨rfl, rfl, rfl, fun _ => rfl⟩

end Sys2Proof.Machine

/-! # Memory: one cell at a time, ranges of cells and of references, and memory as data (spec/20_memory.md)

One equation per BUS request (`perform_read` to `perform_clearMirror`) says when it is RANGE_ERROR and what it does otherwise;
with the specs of Laws/Interface.lean these settle O54 to O57. `KeepsStateUnlessOk` is what every reply keeps (O59).
`exec_store` says once what every store form does (O46, O47). -/

namespace Sys2Proof.Machine

open Sys2Proof.Forms

section CanonicalForm

variable {α : Type} {dflt : Nat → α}

/-- An index whose entry is not the default's is listed, with its value. -/
theorem Sparse.mem_of_get_ne {l : List (Nat × α)} {k : Nat} (h : Sparse.get dflt l k ≠ dflt k) :
    (k, Sparse.get dflt l k) ∈ l := by
  induction l with
  | nil => exact absurd rfl h
  | cons e l ih =>
    obtain ⟨j, v⟩ := e
    by_cases hk : k = j
    · simp [Sparse.get, hk]
    · simp only [Sparse.get, if_neg hk] at h ⊢
      exact List.mem_cons_of_mem _ (ih h)

/-- In a list of rising indices every entry is the one its index reads. -/
theorem Sparse.get_of_mem {l : List (Nat × α)} (hl : l.Pairwise fun e f => e.1 < f.1) {e : Nat × α} (he : e ∈ l) :
    Sparse.get dflt l e.1 = e.2 := by
  induction hl with
  | nil => cases he
  | @cons f l hlt _ ih =>
    rcases List.mem_cons.1 he with rfl | he
    · simp [Sparse.get]
    · simp [Sparse.get, (hlt e he).ne', ih he]

/-- A canonical list lists exactly the values that are not the default's. -/
theorem Sparse.mem_iff_of_wf [DecidableEq α] {l : List (Nat × α)} (hl : Sparse.wf dflt l) (e : Nat × α) :
    e ∈ l ↔ Sparse.get dflt l e.1 = e.2 ∧ e.2 ≠ dflt e.1 := by
  obtain ⟨hrise, hne⟩ := hl
  constructor
  · exact fun he => ⟨Sparse.get_of_mem hrise he, hne e he⟩
  · rintro ⟨hget, hd⟩
    simpa [hget] using Sparse.mem_of_get_ne (hget.trans_ne hd)

/-- Two canonical lists with the same value at every index have the same entries in the same order. -/
theorem Sparse.ext_of_wf [DecidableEq α] {l m : List (Nat × α)} (hl : Sparse.wf dflt l) (hm : Sparse.wf dflt m)
    (h : ∀ k, Sparse.get dflt l k = Sparse.get dflt m k) : l = m := by
  have : Std.Irrefl fun e f : Nat × α => e.1 < f.1 := ⟨fun e => lt_irrefl e.1⟩
  have : Std.Antisymm fun e f : Nat × α => e.1 < f.1 := ⟨fun _ _ hef hfe => absurd hef hfe.asymm⟩
  refine List.Pairwise.eq_of_mem_iff hl.1 hm.1 fun e => ?_
  rw [Sparse.mem_iff_of_wf hl, Sparse.mem_iff_of_wf hm, h]

end CanonicalForm

section BusRequests

/-- A BUS operation with a condition: RANGE_ERROR with the state as it was where the condition fails (R33, R226). -/
theorem busReply_ite (s t : State) (c : Prop) [Decidable c] :
    busReply s (if c then some t else none) = if c then (t, .ok) else (s, .rangeError) := by
  split <;> rfl

theorem perform_read (s : State) (a : Nat) :
    perform (.read a) s = if a < s.cfg.busSize then (s, .okBytes [s.peek a]) else (s, .rangeError) := by
  by_cases ha : a < s.cfg.busSize
  · simp only [perform, State.busRead_some ha, if_pos ha]
  · simp only [perform, State.busRead_none ha, if_neg ha]

theorem perform_write (s : State) (a : Nat) (v : Byte) :
    perform (.write a v) s = if a < s.cfg.busSize then (s.poke a v, .ok) else (s, .rangeError) :=
  busReply_ite s _ _

theorem perform_clearRange (s : State) (first last : Nat) :
    perform (.clearRange first last) s =
      if first ≤ last ∧ last < s.cfg.busSize then (clearCells (last + 1 - first) first s, .ok) else (s, .rangeError) := by
  simp only [← State.rangeOk_iff]
  exact busReply_ite s _ _

theorem perform_clearMirror (s : State) (first last : Nat) :
    perform (.clearMirror first last) s =
      if first ≤ last ∧ last < s.cfg.busSize then (clearRefs (last + 1 - first) first s, .ok) else (s, .rangeError) := by
  simp only [← State.rangeOk_iff]
  exact busReply_ite s _ _

theorem perform_mirror (s : State) (ss se ds de : Nat) :
    perform (.mirror ss se ds de) s =
      if ss ≤ se ∧ ds ≤ de ∧ se - ss = de - ds ∧ se < s.cfg.busSize ∧ de < s.cfg.busSize then
        (copyRefs (se + 1 - ss) ss ds s, .ok) else (s, .rangeError) := by
  have hok : (s.rangeOk ss se && s.rangeOk ds de && decide (se - ss = de - ds)) = true ↔
      ss ≤ se ∧ ds ≤ de ∧ se - ss = de - ds ∧ se < s.cfg.busSize ∧ de < s.cfg.busSize := by
    simp only [Bool.and_eq_true, State.rangeOk_iff, decide_eq_true_eq]
    tauto
  simp only [← hok]
  exact busReply_ite s _ _

/-- Each cell that a cleared address names is zero (R34, R35). -/
theorem clearCells_named {n a b : Nat} (s : State) (hlo : a ≤ b) (hhi : b < a + n) :
    (clearCells n a s).cells.cell (s.ref b) = 0x00 := by
  obtain ⟨-, -, -, hcells⟩ := clearCells_spec n a s
  rcases hcells (s.ref b) with ⟨hzero, -⟩ | ⟨-, hunnamed⟩
  · exact hzero
  · exact absurd rfl (hunnamed b hlo hhi)

/-- A cell that no cleared address names is as before (R34, R35). -/
theorem clearCells_unnamed {n a c : Nat} {s : State} (hc : ∀ b, a ≤ b → b < a + n → s.ref b ≠ c) :
    (clearCells n a s).cells.cell c = s.cells.cell c := by
  obtain ⟨-, -, -, hcells⟩ := clearCells_spec n a s
  rcases hcells c with ⟨-, b, hlo, hhi, hb⟩ | ⟨hsame, -⟩
  · exact absurd hb (hc b hlo hhi)
  · exact hsame

/-- Where source and destination do not overlap, a copied reference names what its source names before and after (R36). -/
theorem copyRefs_disjoint {n src dst k : Nat} (s : State) (hdis : src + n ≤ dst ∨ dst + n ≤ src) (hk : k < n) :
    (copyRefs n src dst s).ref (dst + k) = s.ref (src + k) ∧ (copyRefs n src dst s).ref (src + k) = s.ref (src + k) := by
  obtain ⟨-, -, -, hframe, hcopy⟩ := copyRefs_spec n src dst s
  exact ⟨by rw [hcopy k hk, if_neg (by omega)], hframe _ (by omega)⟩

end BusRequests

section Replies

/-- A reply that is no refusal, and whose state is the old one unless it is OK (R33, R211, R212). -/
def KeepsStateUnlessOk (s : State) (r : State × Reply) : Prop := r.2 ≠ .refused ∧ (r.2 = .ok ∨ r.1 = s)

theorem busReply_keepsState (s : State) (o : Option State) : KeepsStateUnlessOk s (busReply s o) := by
  cases o with
  | none => exact ⟨nofun, .inr rfl⟩
  | some t => exact ⟨nofun, .inl rfl⟩

theorem cpuReply_keepsState (s : State) {o : Host.Outcome State Fault Refusal} (ho : ∀ q, o ≠ .refused q) :
    KeepsStateUnlessOk s (cpuReply s o) := by
  cases o with
  | next t => exact ⟨nofun, .inl rfl⟩
  | fault f => cases f <;> exact ⟨nofun, .inr rfl⟩
  | refused q => exact absurd rfl (ho q)

/-- Every instruction has a meaning (R212). -/
theorem exec_ne_refused (i : Instr) (s : State) (q : Refusal) : exec i s ≠ .refused q := by
  rcases exec_completesOrBusError i s with ⟨t, ht⟩ | ⟨a, ha, -⟩
  · simp [ht]
  · simp [ha]

theorem step_ne_refused (s : State) (q : Refusal) : step s ≠ .refused q := by
  unfold step
  cases fetch s with
  | ok i => exact exec_ne_refused i s q
  | error f => nofun

theorem execOpcode_ne_refused (op : Byte) (s : State) (q : Refusal) : execOpcode op s ≠ .refused q := by
  unfold execOpcode
  cases fetchOperands op s with
  | ok i => exact exec_ne_refused i s q
  | error f => nofun

theorem perform_keepsState (r : Request) (s : State) : KeepsStateUnlessOk s (perform r s) := by
  cases r with
  | reset | clear => exact ⟨nofun, .inl rfl⟩
  | snapshot => exact ⟨nofun, .inr rfl⟩
  | step => exact cpuReply_keepsState s (step_ne_refused s)
  | exec op => exact cpuReply_keepsState s (execOpcode_ne_refused op s)
  | read | readBytes =>
    simp only [perform]
    split <;> exact ⟨nofun, .inr rfl⟩
  | write | clearRange | mirror | clearMirror | writeCell => exact busReply_keepsState s _

end Replies

section Stores

/-- Every store form is a store of its register through its mode, in the time of its row (R66, R113 to R115). -/
theorem exec_store {r : Reg} {op : Byte} {i : Instr} {m : MemMode} {t : Timing} (h : StoreForm r op i m t) (s : State) :
    exec i s = store r m t s := by
  cases h <;> rfl

/-- A store whose effective address exists completes with the byte in the cell of that address. -/
theorem exec_store_next {r : Reg} {op : Byte} {i : Instr} {m : MemMode} {t : Timing} (h : StoreForm r op i m t)
    {s : State} {ea : Word} {c : Bool} (he : effAddr m s = .ok (ea, c)) (hlt : ea.toNat < s.cfg.busSize) :
    exec i s = .next (finish t c (s.poke ea.toNat (s.reg r))) := by
  rw [exec_store h]
  exact store_eq_next_iff.2 ⟨ea, c, he, hlt, rfl⟩

/-- STEP is EXEC of the byte at PC (R80). -/
theorem step_eq_execOpcode {s : State} {op : Byte} (h : memRead s.pc s = .ok op) : step s = execOpcode op s := by
  simp only [step, execOpcode, fetch, h, except_bind_ok]

/-- The CPU reads the byte stored, at every existing address that names the cell it went to (R32). -/
theorem memRead_finish_poke {s : State} {a : Nat} {addr : Word} (t : Timing) (c : Bool) (v : Byte)
    (hlt : addr.toNat < s.cfg.busSize) (halias : s.ref addr.toNat = s.ref a) :
    memRead addr (finish t c (s.poke a v)) = .ok v := by
  rw [State.finish_memRead, memRead_ok (s := s.poke a v) hlt, State.peek_poke, if_pos halias]

end Stores

/-- Settles O9: the only failure is BUS_ERROR at or above N, and every 16-bit address is below 65536. -/
theorem everyInstructionCompletesOnTheFullBus : Obligations.EveryInstructionCompletesOnTheFullBus := by
  intro i s hN
  refine (exec_completesOrBusError i s).resolve_right ?_
  rintro ⟨a, -, ha⟩
  have := a.isLt
  omega

/-- Settles O46: the byte at the new PC is the byte stored, and STEP runs it. -/
theorem storeIsSeenByTheNextFetch : Obligations.StoreIsSeenByTheNextFetch := by
  intro r op i m t hform s ea c he hlt hpc halias
  exact ⟨_, exec_store_next hform he hlt, step_eq_execOpcode (memRead_finish_poke t c _ hpc halias)⟩

/-- Settles O47: whatever the mode, the read is one of the cell the byte went to. -/
theorem storeThenReadGivesTheByte : Obligations.StoreThenReadGivesTheByte := by
  intro r op i m t hform s ea c he hlt
  refine ⟨_, exec_store_next hform he hlt, fun m' ea' c' he' hlt' halias => ?_⟩
  simp only [readSource, he', except_bind_ok, memRead_finish_poke t c (s.reg r) hlt' halias, except_pure]

/-- Settles O54, from the equations of READ and WRITE and the reads and writes of the CPU. -/
theorem readAndWriteOneCell : Obligations.ReadAndWriteOneCell := by
  intro s v
  have hstores : ∀ a, StoresByte a v s (s.poke a v) := fun a => storesByte_of_cells rfl rfl rfl
  refine ⟨fun a ha => ?_, fun a ha => ?_, fun w hw => ?_, fun w hw => ?_⟩
  · rw [perform_read, perform_write, if_pos ha, if_pos ha]
    exact ⟨rfl, _, rfl, hstores a, rfl⟩
  · rw [perform_read, perform_write, if_neg ha.not_gt, if_neg ha.not_gt]
    exact ⟨rfl, rfl⟩
  · exact ⟨memRead_ok hw, _, memWrite_ok hw, hstores w.toNat, rfl⟩
  · exact ⟨memRead_eq_error_iff.2 ⟨hw.not_gt, rfl⟩, memWrite_eq_error_iff.2 ⟨hw.not_gt, rfl⟩⟩

/-- Settles O55: CLEAR_RANGE and CLEAR zero the cells that the addresses of one range name. -/
theorem clearZeroesTheNamedCells : Obligations.ClearZeroesTheNamedCells := by
  intro s first last
  refine ⟨fun hbad => by rw [perform_clearRange, if_neg hbad], fun hok => ?_, ?_⟩
  · obtain ⟨hsnap, hcfg, hrefs, -⟩ := clearCells_spec (last + 1 - first) first s
    rw [perform_clearRange, if_pos hok]
    exact ⟨_, rfl, hsnap, hcfg, hrefs, fun b hlo hhi => clearCells_named s hlo (by omega),
      fun c hc => clearCells_unnamed fun b hlo hhi => hc b hlo (by omega)⟩
  · obtain ⟨hsnap, hcfg, hrefs, -⟩ := clearCells_spec s.cfg.busSize 0 s
    exact ⟨_, rfl, hsnap, hcfg, hrefs, fun b hb => clearCells_named s b.zero_le (by omega),
      fun c hc => clearCells_unnamed fun b _ hhi => hc b (by omega)⟩

/-- Settles O56: MIRROR copies one reference per address, in ascending order. -/
theorem mirrorAliasesTheDestination : Obligations.MirrorAliasesTheDestination := by
  intro s ss se ds de
  refine ⟨fun hbad => by rw [perform_mirror, if_neg hbad], fun hok => ?_⟩
  rw [perform_mirror, if_pos hok]
  obtain ⟨hs, hd, hlen, hsN, hdN⟩ := hok
  obtain ⟨hsnap, hcfg, hcells, hframe, hcopy⟩ := copyRefs_spec (se + 1 - ss) ss ds s
  refine ⟨_, rfl, hsnap, hcfg, hcells, fun b hb => hframe b (by omega), fun k hk => hcopy k (by omega),
    fun hdis k hk => ?_⟩
  obtain ⟨hdst, hsrc⟩ := copyRefs_disjoint (n := se + 1 - ss) (src := ss) (dst := ds) (k := k) s (by omega) (by omega)
  refine ⟨hdst.trans hsrc.symm, ?_⟩
  rw [State.busRead_some (by rw [hcfg]; omega), State.busRead_some (by omega), State.peek, State.peek, hcells, hdst]

/-- Settles O57: CLEAR_MIRROR writes one reference per address, to the address itself. -/
theorem clearMirrorRestoresSelfReference : Obligations.ClearMirrorRestoresSelfReference := by
  intro s first last
  refine ⟨fun hbad => by rw [perform_clearMirror, if_neg hbad], fun hok => ?_⟩
  rw [perform_clearMirror, if_pos hok]
  obtain ⟨hsnap, hcfg, hcells, hframe, hself⟩ := clearRefs_spec (last + 1 - first) first s
  refine ⟨_, rfl, hsnap, hcfg, hcells, fun b hlo hhi => ?_, fun b hb => hframe b (by omega)⟩
  have hb := hself b hlo (by omega)
  refine ⟨hb, ?_⟩
  rw [State.busRead_some (by rw [hcfg]; omega), State.peek, hcells, hb]

/-- Settles O59: a failure is no OK, and every other reply than OK carries the old state. -/
theorem failuresChangeNothing : Obligations.FailuresChangeNothing := by
  intro r s
  obtain ⟨hmeaning, hkeeps⟩ := perform_keepsState r s
  refine ⟨hmeaning, fun hfail => hkeeps.resolve_left fun hok => ?_⟩
  rw [hok] at hfail
  rcases hfail with h | ⟨op, h⟩ | ⟨a, h⟩ <;> cases h

/-- Settles O60: a canonical list is fixed by what its indices read. -/
theorem equalMemoriesAreEqualData : Obligations.EqualMemoriesAreEqualData :=
  fun _ _ hm hk h => Sparse.ext_of_wf hm hk h

end Sys2Proof.Machine

/-! # Encoding: the decoder and the encoder agree, and which faults a fetch reports (spec/30_encoding.md R60 to R66)

`Template.Finishes` is the three formats of R60 as a relation between a template, operand bytes and an instruction. Both sides
of the round trip are said through it: `decode_eq_ok_iff` for the decoder, `encode_finishes` (from the instruction) and
`template_describes` (from the opcode byte) for the encoder (O2, O3). `step_fault_cases` and `execOpcode_fault_cases` say once
what can stop STEP and EXEC (O4, O8). -/

namespace Sys2Proof

section RoundTrip

/-- A format makes this instruction of these operand bytes: F1, F2, F3 of R60, the word with its low byte first. -/
inductive Template.Finishes : Template → List Byte → Instr → Prop
  | implied (i : Instr) : Finishes (.implied i) [] i
  | byte (f : Byte → Instr) (d : Byte) : Finishes (.byte f) [d] (f d)
  | word (f : Word → Instr) (w : Word) : Finishes (.word f) [w.lo, w.hi] (f w)

/-- Two bytes are the operand of the word they make (R40, R60). -/
theorem Template.Finishes.of_bytes (f : Word → Instr) (lo hi : Byte) : Finishes (.word f) [lo, hi] (f (wordOf lo hi)) := by
  simpa using Finishes.word f (wordOf lo hi)

/-- What decodes is a defined opcode byte, then the operand bytes of its format, then what is left over (R60, R62). -/
theorem decode_eq_ok_iff {bs rest : List Byte} {i : Instr} :
    decode bs = .ok (i, rest) ↔
      ∃ op operands t, bs = op :: operands ++ rest ∧ template op = some t ∧ t.Finishes operands i := by
  constructor
  · intro h
    unfold decode at h
    split at h
    · cases h
    next op tail =>
      split at h
      · cases h
      next ht =>
        cases h
        exact ⟨op, [], _, rfl, ht, .implied i⟩
      next f ht =>
        split at h <;> cases h
        exact ⟨op, [_], _, rfl, ht, .byte f _⟩
      next f ht =>
        split at h <;> cases h
        exact ⟨op, [_, _], _, rfl, ht, .of_bytes f _ _⟩
  · rintro ⟨op, operands, t, rfl, ht, hf⟩
    cases hf <;> simp [decode, ht]

/-- The encoding of every instruction is a defined opcode byte and the operand bytes that finish it, by the three formats
(R60, R66). -/
theorem encode_finishes (i : Instr) :
    ∃ op operands t, encode i = op :: operands ∧ template op = some t ∧ t.Finishes operands i := by
  cases i with
  | tax | tay | txa | tya | tsx | txs | aslAcc | lsrAcc | rolAcc | rorAcc | inx | iny | dex | dey | rts | rti | pha
  | php | pla | plp | clc | sec | cli | sei | cld | sed | clv | nop | brk =>
    exact ⟨_, _, _, rfl, rfl, .implied _⟩
  | ldaImm d | ldaZp d | ldaZpX d | ldaIndX d | ldaIndY d | ldxImm d | ldxZp d | ldxZpY d | ldyImm d | ldyZp d
  | ldyZpX d | staZp d | staZpX d | staIndX d | staIndY d | stxZp d | stxZpY d | styZp d | styZpX d | adcImm d
  | adcZp d | adcZpX d | adcIndX d | adcIndY d | sbcImm d | sbcZp d | sbcZpX d | sbcIndX d | sbcIndY d | andImm d
  | andZp d | andZpX d | andIndX d | andIndY d | oraImm d | oraZp d | oraZpX d | oraIndX d | oraIndY d | eorImm d
  | eorZp d | eorZpX d | eorIndX d | eorIndY d | bitZp d | cmpImm d | cmpZp d | cmpZpX d | cmpIndX d | cmpIndY d
  | cpxImm d | cpxZp d | cpyImm d | cpyZp d | aslZp d | aslZpX d | lsrZp d | lsrZpX d | rolZp d | rolZpX d | rorZp d
  | rorZpX d | incZp d | incZpX d | decZp d | decZpX d | bcc d | bcs d | beq d | bmi d | bne d | bpl d | bvc d | bvs d =>
    exact ⟨_, _, _, rfl, rfl, .byte _ d⟩
  | ldaAbs w | ldaAbsX w | ldaAbsY w | ldxAbs w | ldxAbsY w | ldyAbs w | ldyAbsX w | staAbs w | staAbsX w | staAbsY w
  | stxAbs w | styAbs w | adcAbs w | adcAbsX w | adcAbsY w | sbcAbs w | sbcAbsX w | sbcAbsY w | andAbs w | andAbsX w
  | andAbsY w | oraAbs w | oraAbsX w | oraAbsY w | eorAbs w | eorAbsX w | eorAbsY w | bitAbs w | cmpAbs w | cmpAbsX w
  | cmpAbsY w | cpxAbs w | cpyAbs w | aslAbs w | aslAbsX w | lsrAbs w | lsrAbsX w | rolAbs w | rolAbsX w | rorAbs w
  | rorAbsX w | incAbs w | incAbsX w | decAbs w | decAbsX w | jmpAbs w | jmpInd w | jsr w =>
    exact ⟨_, _, _, rfl, rfl, .word _ w⟩

/-- R60: the encoding of an instruction is read back from the front of any list. -/
theorem decode_encode (i : Instr) (rest : List Byte) : decode (encode i ++ rest) = .ok (i, rest) := by
  obtain ⟨op, operands, t, he, ht, hf⟩ := encode_finishes i
  exact decode_eq_ok_iff.2 ⟨op, operands, t, by rw [he], ht, hf⟩

/-- An entry of the opcode matrix is right about the encoder: what its template finishes is encoded as its opcode byte and the
operand bytes. -/
def Describes (e : Byte × Template) : Prop := ∀ operands i, e.2.Finishes operands i → encode i = e.1 :: operands

theorem describes_implied {op : Byte} {i : Instr} : Describes (op, .implied i) ↔ encode i = [op] :=
  ⟨fun h => h _ _ (.implied i), fun h _ _ hf => by cases hf; exact h⟩

theorem describes_byte {op : Byte} {f : Byte → Instr} : Describes (op, .byte f) ↔ ∀ d, encode (f d) = [op, d] :=
  ⟨fun h d => h _ _ (.byte f d), fun h _ _ hf => by cases hf; exact h _⟩

theorem describes_word {op : Byte} {f : Word → Instr} : Describes (op, .word f) ↔ ∀ w, encode (f w) = [op, w.lo, w.hi] :=
  ⟨fun h w => h _ _ (.word f w), fun h _ _ hf => by cases hf; exact h _⟩

/-- Every row of the opcode matrix agrees with the encoder, entry by entry (R62, R66). -/
theorem opcodeRow_describes (n : Nat) : ∀ e ∈ opcodeRow n, Describes e := by
  unfold opcodeRow
  split <;>
    simp [opcodeRow0, opcodeRow1, opcodeRow2, opcodeRow3, opcodeRow4, opcodeRow5, opcodeRow6, opcodeRow7, opcodeRow8,
      opcodeRow9, opcodeRowA, opcodeRowB, opcodeRowC, opcodeRowD, opcodeRowE, opcodeRowF, describes_implied,
      describes_byte, describes_word, encode]

/-- What is found in a row stands in it. -/
theorem mem_of_findOpcode {row : List (Byte × Template)} {op : Byte} {t : Template} (h : findOpcode row op = some t) :
    (op, t) ∈ row := by
  induction row with
  | nil => cases h
  | cons e row ih =>
    unfold findOpcode at h
    split at h
    next hop =>
      cases h
      exact hop ▸ List.mem_cons_self
    next => exact List.mem_cons_of_mem _ (ih h)

/-- A defined opcode byte begins the encoding of whatever its template finishes (R62, R65). -/
theorem template_describes {op : Byte} {t : Template} (h : template op = some t) : Describes (op, t) :=
  opcodeRow_describes _ _ (mem_of_findOpcode h)

end RoundTrip

/-- Settles O2: the encoding is an opcode byte and the operand bytes of its format, which is what the decoder reads. -/
theorem decodeOfEncodeIsTheInstruction : Obligations.DecodeOfEncodeIsTheInstruction :=
  decode_encode

/-- Settles O3: the matrix entry of the byte decoded first agrees with the encoder. -/
theorem encodeOfDecodedIsTheBytes : Obligations.EncodeOfDecodedIsTheBytes := by
  intro bs rest i h
  obtain ⟨op, operands, t, rfl, ht, hf⟩ := decode_eq_ok_iff.1 h
  rw [template_describes ht operands i hf]

/-- Settles O1: each of the thirteen sequences is the encoding of the instruction beside it. -/
theorem writtenOutBytesDecode : Obligations.WrittenOutBytesDecode := by
  have decodes : ∀ i, decode (encode i) = .ok (i, []) := fun i => by
    rw [← decode_encode i [], List.append_nil]
  exact ⟨decodes .clc, decodes .aslAcc, decodes (.ldaImm 0x10), decodes (.ldaZp 0x10), decodes (.ldaZpX 0x10),
    decodes (.ldxZpY 0x10), decodes (.ldaAbs 0x1234), decodes (.ldaAbsX 0x1234), decodes (.ldaAbsY 0x1234),
    decodes (.jmpInd 0x1234), decodes (.ldaIndX 0x10), decodes (.ldaIndY 0x10), decodes (.bne 0xF9)⟩

end Sys2Proof

namespace Sys2Proof.Machine

open Sys2Proof.Forms

section UndefinedOpcodes

variable {op op' : Byte} {s : State} {f : Fault}

/-- No undefined byte has an entry in the opcode matrix (R62, R64). -/
theorem template_of_undefined : ∀ op ∈ undefinedOpcodes, template op = none := by decide

/-- An undefined opcode byte is reported before any operand byte is read (R64, R216). -/
theorem execOpcode_undefined (h : op ∈ undefinedOpcodes) (s : State) : execOpcode op s = .fault (.unknownOpcode op) := by
  simp only [execOpcode, fetchOperands, template_of_undefined op h]

/-- What can stop EXEC: its own opcode byte, if it is undefined, or a BUS_ERROR (R64, R210, R216). -/
theorem execOpcode_fault_cases (h : execOpcode op s = .fault f) :
    (f = .unknownOpcode op ∧ op ∈ undefinedOpcodes) ∨ ∃ a : Word, f = .busError a ∧ s.cfg.busSize ≤ a.toNat := by
  unfold execOpcode at h
  split at h
  next i _ =>
    rcases exec_completesOrBusError i s with ⟨t, ht⟩ | ⟨a, ha, hN⟩
    · exact absurd (ht.symm.trans h) nofun
    · exact .inr ⟨a, by rw [ha] at h; cases h; rfl, hN⟩
  next hfetch =>
    cases h
    exact fetchOperands_error hfetch

/-- What can stop STEP: an undefined opcode byte at PC, or a BUS_ERROR (R64, R210, R216). -/
theorem step_fault_cases (h : step s = .fault f) :
    (∃ op, memRead s.pc s = .ok op ∧ f = .unknownOpcode op ∧ op ∈ undefinedOpcodes) ∨
      ∃ a : Word, f = .busError a ∧ s.cfg.busSize ≤ a.toNat := by
  cases hpc : memRead s.pc s with
  | error g =>
    have hg : step s = .fault g := by simp only [step, fetch, hpc, except_bind_error]
    obtain rfl : g = f := by rw [hg] at h; cases h; rfl
    exact .inr (OnlyBusErrors.memRead _ _ hpc)
  | ok op =>
    exact (execOpcode_fault_cases (step_eq_execOpcode hpc ▸ h)).imp_left fun hu => ⟨op, rfl, hu⟩

/-- A defined opcode byte is never reported, whatever follows it (R64). -/
theorem execOpcode_ne_unknownOpcode (h : op ∉ undefinedOpcodes) : execOpcode op s ≠ .fault (.unknownOpcode op') := by
  intro hf
  rcases execOpcode_fault_cases hf with ⟨-, hu⟩ | ⟨a, ha, -⟩
  · exact h hu
  · cases ha

/-- The host sees UNKNOWN_OPCODE only where the CPU reported it (R211). -/
theorem cpuReply_unknownOpcode {o : Host.Outcome State Fault Refusal} (h : (cpuReply s o).2 = .unknownOpcode op) :
    o = .fault (.unknownOpcode op) := by
  cases o with
  | next t => cases h
  | refused q => cases h
  | fault f =>
    cases f <;> cases h
    rfl

end UndefinedOpcodes

/-- Settles O4: an undefined byte has no entry in the matrix, and a defined one is stopped by BUS_ERROR only. -/
theorem undefinedOpcodesAreReportedAndChangeNothing : Obligations.UndefinedOpcodesAreReportedAndChangeNothing := by
  refine ⟨rfl, fun op hop s => ?_, fun op hop s op' => ?_⟩
  · have hexec := execOpcode_undefined hop s
    refine ⟨by simp only [perform, hexec, cpuReply], fun hpc => ?_⟩
    have hstep := (step_eq_execOpcode hpc).trans hexec
    exact ⟨hstep, by simp only [perform, hstep, cpuReply]⟩
  · have hexec := execOpcode_ne_unknownOpcode (s := s) (op' := op') hop
    exact ⟨fun h => hexec (cpuReply_unknownOpcode h), fun hpc => step_eq_execOpcode hpc ▸ hexec⟩

/-- Settles O8, from the two causes that can stop STEP. -/
theorem stepFaultsOnlyAsTheSpecSays : Obligations.StepFaultsOnlyAsTheSpecSays := by
  refine fun s => ⟨step_ne_refused s, fun op h => ?_, fun a h => ?_⟩
  · rcases step_fault_cases h with ⟨op', hpc, ⟨⟩, hu⟩ | ⟨a, ha, -⟩
    · exact ⟨hpc, hu⟩
    · cases ha
  · rcases step_fault_cases h with ⟨op, -, hf, -⟩ | ⟨a', ⟨⟩, hN⟩
    · cases hf
    · exact hN

end Sys2Proof.Machine

/-! # Dispatch and addressing: which bytes STEP and EXEC run, where each mode points, and where control goes
(spec/40_dispatch_addressing.md R80 to R96, R103; spec/44_branch_jump_subroutine.md R170 to R179)

`readWord` is the read of a low byte and then a high byte that operand words, zero-page pointers and the pointer of JMP share;
its three lemmas say which access is reported (O7, O26) and which word is read (O10, O26). `fetchOperands_of_holdsBytes` goes
from bytes in memory to the instruction a format makes of them (O5, O6). -/

namespace Sys2Proof.Machine

open Sys2Proof.Forms

section Reads

variable {s : State} {v : Byte} {a b : Word}

theorem memRead_of_busRead (h : s.busRead a.toNat = some v) : memRead a s = .ok v :=
  memRead_eq_ok_iff.2 (busRead_eq_some_iff.1 h)

theorem memRead_missing (h : s.cfg.busSize ≤ a.toNat) : memRead a s = .error (.busError a) :=
  memRead_eq_error_iff.2 ⟨h.not_gt, rfl⟩

/-- The word whose low byte is at a and whose high byte is at b, read in this order (R40, R103). -/
def readWord (a b : Word) (s : State) : Except Fault Word := do
  let lo ← memRead a s
  let hi ← memRead b s
  return wordOf lo hi

theorem readWord_ok {lo hi : Byte} (ha : memRead a s = .ok lo) (hb : memRead b s = .ok hi) :
    readWord a b s = .ok (wordOf lo hi) := by
  simp only [readWord, ha, hb, except_bind_ok, except_pure]

theorem readWord_low_missing (ha : s.cfg.busSize ≤ a.toNat) : readWord a b s = .error (.busError a) := by
  simp only [readWord, memRead_missing ha, except_bind_error]

theorem readWord_high_missing (ha : a.toNat < s.cfg.busSize) (hb : s.cfg.busSize ≤ b.toNat) :
    readWord a b s = .error (.busError b) := by
  simp only [readWord, memRead_ok ha, memRead_missing hb, except_bind_ok, except_bind_error]

theorem zeroPagePointer_eq_readWord (z : Byte) (s : State) :
    zeroPagePointer z s = readWord (zext z) (zext (z + 1)) s := rfl

theorem jumpTarget_indirect (w : Word) (s : State) : jumpTarget (.indirect w) s = readWord w (w + 1) s := rfl

/-- An operand word is read like every other, low byte first (R60, R81). -/
theorem fetchOperands_word {op : Byte} {f : Word → Instr} (ht : template op = some (.word f)) (s : State) :
    fetchOperands op s = (readWord (s.pc + 1) (s.pc + 2) s).map f := by
  simp only [fetchOperands, ht, readWord]
  cases memRead (s.pc + 1) s with
  | error _ => rfl
  | ok lo => cases memRead (s.pc + 2) s <;> rfl

theorem fetchOperands_byte {op : Byte} {f : Byte → Instr} (ht : template op = some (.byte f)) (s : State) :
    fetchOperands op s = (memRead (s.pc + 1) s).map f := by
  simp only [fetchOperands, ht]
  cases memRead (s.pc + 1) s <;> rfl

end Reads

section Fetching

variable {s : State} {op : Byte} {operands : List Byte} {i : Instr} {t : Template}

theorem holdsBytes_cons {addr : Word} {v : Byte} {vs : List Byte} :
    HoldsBytes s addr (v :: vs) ↔ memRead addr s = .ok v ∧ HoldsBytes s (addr + 1) vs := by
  have next : ∀ k : Nat, addr + 1 + BitVec.ofNat 16 k = addr + BitVec.ofNat 16 (k + 1) := fun k => by
    rw [Nat.add_comm, BitVec.ofNat_add, BitVec.add_assoc]
    rfl
  constructor
  · intro h
    refine ⟨by simpa using h 0 (by simp), fun k hk => ?_⟩
    rw [next]
    exact h (k + 1) (Nat.succ_lt_succ hk)
  · rintro ⟨hv, hvs⟩ (_ | k) hk
    · simpa using hv
    · rw [← next]
      exact hvs k (Nat.lt_of_succ_lt_succ hk)

/-- Operand bytes that stand after PC are made into the instruction that the format makes of them (R60, R81). -/
theorem fetchOperands_of_holdsBytes (ht : template op = some t) (hf : t.Finishes operands i)
    (h : HoldsBytes s (s.pc + 1) operands) : fetchOperands op s = .ok i := by
  cases hf with
  | implied i => simp only [fetchOperands, ht]
  | byte f d =>
    obtain ⟨hd, -⟩ := holdsBytes_cons.1 h
    rw [fetchOperands_byte ht, hd]
    rfl
  | word f w =>
    obtain ⟨hlo, h⟩ := holdsBytes_cons.1 h
    obtain ⟨hhi, -⟩ := holdsBytes_cons.1 h
    rw [show s.pc + 1 + 1 = s.pc + 2 from BitVec.add_assoc _ _ _] at hhi
    rw [fetchOperands_word ht, readWord_ok hlo hhi, wordOf_lo_hi]
    rfl

theorem execOpcode_of_decode (hdec : decode (op :: operands) = .ok (i, [])) (h : HoldsBytes s (s.pc + 1) operands) :
    execOpcode op s = exec i s := by
  obtain ⟨op', operands', t, hbs, ht, hf⟩ := decode_eq_ok_iff.1 hdec
  obtain ⟨rfl, rfl⟩ : op = op' ∧ operands = operands' := by simpa using hbs
  simp only [execOpcode, fetchOperands_of_holdsBytes ht hf h]

/-- The decoder refuses as undefined only a byte without an entry in the opcode matrix (R64). -/
theorem mem_undefinedOpcodes_of_decode (h : decode (op :: operands) = .error (.undefinedOpcode op)) :
    op ∈ undefinedOpcodes := by
  refine (template_isSome_or_undefined op).resolve_left fun hsome => ?_
  obtain ⟨t, ht⟩ := Option.isSome_iff_exists.1 hsome
  simp only [decode, ht] at h
  cases t with
  | implied i => cases h
  | byte f => cases operands <;> cases h
  | word f => obtain _ | ⟨lo, _ | ⟨hi, rest⟩⟩ := operands <;> cases h

/-- An encoding is a defined opcode byte and operand bytes of its format (R60, R65). -/
theorem template_of_encode (h : encode i = op :: operands) : ∃ t, template op = some t ∧ t.Finishes operands i := by
  obtain ⟨op', operands', t, he, ht, hf⟩ := encode_finishes i
  obtain ⟨rfl, rfl⟩ : op = op' ∧ operands = operands' := by simpa [h] using he
  exact ⟨t, ht, hf⟩

/-- The first operand byte is the first to be missed, whether or not there is a second (R103). -/
theorem execOpcode_first_missing {d : Byte} (he : encode i = op :: d :: operands)
    (h : s.cfg.busSize ≤ (s.pc + 1).toNat) : execOpcode op s = .fault (.busError (s.pc + 1)) := by
  obtain ⟨t, ht, hf⟩ := template_of_encode he
  have hfetch : fetchOperands op s = .error (.busError (s.pc + 1)) := by
    cases hf with
    | byte f d =>
      rw [fetchOperands_byte ht, memRead_missing h]
      rfl
    | word f w =>
      rw [fetchOperands_word ht, readWord_low_missing h]
      rfl
  simp only [execOpcode, hfetch]

theorem execOpcode_second_missing {lo hi : Byte} (he : encode i = [op, lo, hi]) (h₁ : (s.pc + 1).toNat < s.cfg.busSize)
    (h₂ : s.cfg.busSize ≤ (s.pc + 2).toNat) : execOpcode op s = .fault (.busError (s.pc + 2)) := by
  obtain ⟨t, ht, hf⟩ := template_of_encode he
  have hfetch : fetchOperands op s = .error (.busError (s.pc + 2)) := by
    cases hf with
    | word f w =>
      rw [fetchOperands_word ht, readWord_high_missing h₁ h₂]
      rfl
  simp only [execOpcode, hfetch]

theorem step_pc_missing (h : s.cfg.busSize ≤ s.pc.toNat) : step s = .fault (.busError s.pc) := by
  simp only [step, fetch, memRead_missing h, except_bind_error]

end Fetching

section Addresses

variable {s : State} {d : Byte} {w : Word} {f : Fault}

theorem word_hi_toNat (w : Word) : w.hi.toNat = w.toNat / 256 := by
  have := w.isLt
  simp only [Word.hi, BitVec.toNat_ofNat]
  omega

/-- Two addresses lie in different pages when their quotients by the page size differ (R96). -/
theorem pageCross_eq_decide (a b : Word) : pageCross a b = decide (a.toNat / 256 ≠ b.toNat / 256) := by
  rw [Bool.eq_iff_iff]
  simp only [pageCross, bne_iff_ne, ne_eq, BitVec.toNat_eq, word_hi_toNat, decide_eq_true_eq]

theorem wordOf_page (lo hi : Byte) : (wordOf lo hi).toNat / 256 = hi.toNat := by
  rw [← word_hi_toNat, wordOf_hi]

theorem add_zext_toNat (w : Word) (v : Byte) : (w + zext v).toNat = (w.toNat + v.toNat) % 65536 := by
  rw [BitVec.toNat_add, zext_toNat]

theorem zext_add_toNat (d v : Byte) : (zext (d + v)).toNat = (d.toNat + v.toNat) % 256 := by
  rw [zext_toNat, BitVec.toNat_add]

/-- The pointer in the zero page, in numbers: its high byte is at the next address mod 256 (R92, R93; D7). -/
theorem zeroPagePointer_of_busRead {z lo hi : Byte} (hlo : s.busRead z.toNat = some lo)
    (hhi : s.busRead ((z.toNat + 1) % 256) = some hi) : zeroPagePointer z s = .ok (wordOf lo hi) := by
  rw [zeroPagePointer_eq_readWord]
  exact readWord_ok (memRead_of_busRead (by rwa [zext_toNat])) (memRead_of_busRead (by rwa [zext_add_toNat]))

theorem effAddr_indirectX_of_pointer (h : zeroPagePointer (d + s.x) s = .ok w) :
    effAddr (.indirectX d) s = .ok (w, false) := by
  simp only [effAddr, h, except_bind_ok, except_pure]

theorem effAddr_indirectY_of_pointer (h : zeroPagePointer d s = .ok w) :
    effAddr (.indirectY d) s = .ok (w + zext s.y, pageCross w (w + zext s.y)) := by
  simp only [effAddr, h, except_bind_ok, except_pure]

theorem effAddr_indirectX_error (h : zeroPagePointer (d + s.x) s = .error f) : effAddr (.indirectX d) s = .error f :=
  bind_eq_error_iff.2 (.inl h)

theorem effAddr_indirectY_error (h : zeroPagePointer d s = .error f) : effAddr (.indirectY d) s = .error f :=
  bind_eq_error_iff.2 (.inl h)

theorem zeroPagePointer_low_missing {z : Byte} (h : s.cfg.busSize ≤ z.toNat) :
    zeroPagePointer z s = .error (.busError (zext z)) := by
  rw [zeroPagePointer_eq_readWord, readWord_low_missing (by rwa [zext_toNat])]

theorem zeroPagePointer_high_missing {z : Byte} (h₁ : z.toNat < s.cfg.busSize) (h₂ : s.cfg.busSize ≤ (z + 1).toNat) :
    zeroPagePointer z s = .error (.busError (zext (z + 1))) := by
  rw [zeroPagePointer_eq_readWord, readWord_high_missing (by rwa [zext_toNat]) (by rwa [zext_toNat])]

end Addresses

section ControlTransfers

variable {s : State} {f : Flag} {b : Bool} {op d : Byte} {i : Instr}

/-- A control transfer writes PC and CYC and nothing else (R170, R179). -/
theorem goTo_keeps (s : State) (w : Word) (n : Nat) :
    KeepsRegs [] s (s.goTo w n) ∧ KeepsFlags [] s (s.goTo w n) ∧ KeepsBus s (s.goTo w n) :=
  ⟨fun r _ => State.goTo_reg s w n r, fun _ _ => rfl, rfl, rfl, rfl, fun _ => rfl⟩

/-- Every branch form tests its flag against its value (R171 to R178). -/
theorem exec_branch (h : BranchForm f b op i d) (s : State) : exec i s = branch (s.flag f == b) d s := by
  cases h <;> simp only [beq_true, beq_false] <;> rfl

theorem branchNext_toNat (s : State) : (branchNext s).toNat = (s.pc.toNat + 2) % 65536 := BitVec.toNat_add _ _

/-- A branch target is the next instruction's address plus the signed offset, mod 65536 (R94; D6). -/
theorem branchTarget_toNat (d : Byte) (s : State) :
    ((branchTarget d s).toNat : Int) = ((branchNext s).toNat + d.toInt) % 65536 := by
  have hsext : (sext d).toNat = (d.toInt % 65536).toNat := BitVec.toNat_ofInt d.toInt
  rw [branchTarget, BitVec.toNat_add, hsext]
  omega

theorem jump_of_target {m : JumpMode} {w : Word} {base : Nat} (h : jumpTarget m s = .ok w) :
    jump m base s = .next (s.goTo w base) :=
  jump_eq_next_iff.2 ⟨w, h, rfl⟩

theorem jump_fault {m : JumpMode} {f : Fault} {base : Nat} (h : jumpTarget m s = .error f) :
    jump m base s = .fault f :=
  outcome_eq_fault_iff.2 (bind_eq_error_iff.2 (.inl h))

end ControlTransfers

/-- Settles O6: the decoder and the fetch make the instruction of the same operand bytes. -/
theorem execTakesItsOperandsAfterPc : Obligations.ExecTakesItsOperandsAfterPc := by
  intro s op
  refine ⟨fun _ _ => execOpcode_of_decode, fun operands h => execOpcode_undefined (mem_undefinedOpcodes_of_decode h) s,
    fun s' h => ?_, fun a h => ?_, fun op' h => ?_⟩
  all_goals simp only [perform, h, cpuReply]

/-- Settles O7, access by access in the order they are made. -/
theorem firstFailingCheckIsReported : Obligations.FirstFailingCheckIsReported := by
  refine fun s => ⟨step_pc_missing, fun op hpc hop => ?_, fun i op d he hpc h => ?_, fun i op lo hi he hpc => ⟨?_, ?_⟩,
    ?_, fun d => ⟨fun h => ?_, fun h₁ h₂ => ?_⟩, fun m ea c he h => ?_⟩
  · rw [step_eq_execOpcode hpc, execOpcode_undefined hop]
  · rw [step_eq_execOpcode hpc, execOpcode_first_missing he h]
  · intro h
    rw [step_eq_execOpcode hpc, execOpcode_first_missing he h]
  · intro h₁ h₂
    rw [step_eq_execOpcode hpc, execOpcode_second_missing he h₁ h₂]
  · rintro d z rfl
    exact ⟨fun h => effAddr_indirectX_error (zeroPagePointer_low_missing h),
      fun h₁ h₂ => effAddr_indirectX_error (zeroPagePointer_high_missing h₁ h₂)⟩
  · exact effAddr_indirectY_error (zeroPagePointer_low_missing h)
  · exact effAddr_indirectY_error (zeroPagePointer_high_missing h₁ h₂)
  · exact bind_eq_error_iff.2 (.inr ⟨_, he, bind_eq_error_iff.2 (.inl (memRead_missing h))⟩)

/-- Settles O10, mode by mode. -/
theorem effectiveAddressOfEachMode : Obligations.EffectiveAddressOfEachMode := by
  refine fun s => ⟨fun d => ⟨_, rfl, zext_toNat d⟩, fun d => ⟨_, rfl, zext_add_toNat d s.x⟩,
    fun d => ⟨_, rfl, zext_add_toNat d s.y⟩, fun w => rfl, fun w => ?_, fun w => ?_, fun d lo hi hlo hhi => ?_,
    fun d lo hi hlo hhi => ?_⟩
  · exact ⟨w + zext s.x, by rw [← pageCross_eq_decide]; rfl, add_zext_toNat w s.x⟩
  · exact ⟨w + zext s.y, by rw [← pageCross_eq_decide]; rfl, add_zext_toNat w s.y⟩
  · rw [← BitVec.toNat_add] at hlo
    have hptr := zeroPagePointer_of_busRead hlo (by rwa [BitVec.toNat_add, Nat.mod_add_mod])
    exact ⟨_, effAddr_indirectX_of_pointer hptr, wordOf_toNat lo hi⟩
  · have hptr := zeroPagePointer_of_busRead hlo hhi
    refine ⟨_, (effAddr_indirectY_of_pointer hptr).trans ?_, by rw [add_zext_toNat, wordOf_toNat]⟩
    rw [pageCross_eq_decide, wordOf_page]

/-- Settles O25: every form is one branch, which goes to the target or to the next instruction. -/
theorem branchesGoOrFallThrough : Obligations.BranchesGoOrFallThrough := by
  intro f b op i d hform
  refine ⟨by cases hform <;> rfl, fun s => ?_⟩
  rw [exec_branch hform, branch_eq_next]
  refine ⟨_, (branchNext s).toNat, (branchTarget d s).toNat, rfl, branchNext_toNat s, branchTarget_toNat d s,
    fun h => ?_, fun h => ?_, goTo_keeps s _ _⟩
  · rw [if_pos (beq_iff_eq.2 h), if_pos (beq_iff_eq.2 h), pageCross_eq_decide]
    simp only [decide_eq_true_eq]
    exact ⟨rfl, rfl⟩
  · rw [if_neg (beq_iff_eq.not.2 h), if_neg (beq_iff_eq.not.2 h)]
    exact ⟨rfl, rfl⟩

/-- Settles O26: the pointer is read like every other word, with its high byte at the next address mod 65536. -/
theorem jumpGoesToItsTarget : Obligations.JumpGoesToItsTarget := by
  refine fun w => ⟨rfl, rfl, fun s => ⟨?_, fun lo hi hlo hhi => ?_, fun h => ?_, fun h₁ h₂ => ?_⟩⟩
  · exact ⟨_, rfl, ⟨rfl, rfl⟩, goTo_keeps s w 3⟩
  · have hnext : (w + 1).toNat = (w.toNat + 1) % 65536 := BitVec.toNat_add w 1
    have htarget := (jumpTarget_indirect w s).trans
      (readWord_ok (memRead_of_busRead hlo) (memRead_of_busRead (by rwa [hnext])))
    exact ⟨_, jump_of_target htarget, ⟨wordOf_toNat lo hi, rfl⟩, goTo_keeps s _ 5⟩
  · exact jump_fault ((jumpTarget_indirect w s).trans (readWord_low_missing h))
  · exact jump_fault ((jumpTarget_indirect w s).trans (readWord_high_missing h₁ h₂))

/-- Settles O5: the byte at PC is the opcode, and EXEC takes the operand bytes after it. -/
theorem stepRunsTheDecodedInstruction : Obligations.StepRunsTheDecodedInstruction := by
  refine fun s => ⟨fun bs i hdec hbs => ?_, fun op hop => step_eq_execOpcode (memRead_of_busRead hop), fun h => ?_⟩
  · obtain ⟨op, operands, -, hcons, -, -⟩ := decode_eq_ok_iff.1 hdec
    obtain rfl : bs = op :: operands := by simpa using hcons
    obtain ⟨hpc, hoperands⟩ := holdsBytes_cons.1 hbs
    rw [step_eq_execOpcode hpc, execOpcode_of_decode hdec hoperands]
  · have hstep := step_pc_missing h
    exact ⟨hstep, by simp only [perform, hstep, cpuReply]⟩

/-- Settles O11: a memory operand is read at the address its mode resolves to, and a failed resolution is the failure. -/
theorem operandReadIsTheByteAtItsAddress : Obligations.OperandReadIsTheByteAtItsAddress :=
  fun s => ⟨fun v => readSource_imm v s,
    fun _ ea _ _ he hv => readSource_mem_eq_ok_iff.2 ⟨ea, he, busRead_eq_some_iff.1 hv⟩,
    fun _ _ he => bind_eq_error_iff.2 (.inl he)⟩

end Sys2Proof.Machine

/-! # Loads, stores and transfers: the register or the cell takes the byte (spec/41_load_store_transfer.md R110 to R121)

`setReg_setZN_finish` says once what a register written with its Z and N leaves behind; with `exec_load` and `exec_transfer` it
settles O14 and the first part of O16. The frame lemmas before it are about `finish` and serve every instruction that does not
transfer control. -/

namespace Sys2Proof.Machine

open Sys2Proof.Forms

section Tail

variable {s u : State}

theorem cost_eq_base {t : Timing} (ht : t.crossExtra = false) (c : Bool) : cost t c = t.base := by simp [cost, ht]

/-- The common tail moves PC by the length and CYC by the cost, whatever else was written before it (R82). -/
theorem advances_finish (t : Timing) (c : Bool) (hpc : u.pc = s.pc) (hcyc : u.cyc = s.cyc) (hcfg : u.cfg = s.cfg) :
    Advances t.length (cost t c) s (finish t c u) := by
  constructor
  · rw [State.finish_pc, hpc, BitVec.toNat_add, BitVec.toNat_ofNat, Nat.add_mod_mod]
  · rw [State.finish_cyc, hcyc, hcfg]
    simp only [cost, Bool.and_eq_true]

/-- A state with the same cells, aliases and parameters has the same BUS (R31). -/
theorem keepsBus_of_eq (hcfg : u.cfg = s.cfg) (hrefs : u.refs = s.refs) (hcells : u.cells = s.cells) : KeepsBus s u :=
  ⟨hcfg, hrefs, hcells, State.busRead_congr hcells hrefs hcfg⟩

/-- SetZN makes Z and N follow its value (R97). -/
theorem znFollow_of_p {v p : Byte} (hp : u.p = withZN v p) : ZNFollow v u := by
  rw [ZNFollow, State.flag_def, State.flag_def, hp]
  exact ⟨by rw [flagOf_withZN, if_neg (by decide), if_pos rfl, beq_zero_eq_decide],
    by rw [flagOf_withZN, if_pos rfl, getLsbD_seven]⟩

/-- SetZN writes no other flag (R97). -/
theorem keepsFlags_of_p {v : Byte} (hp : u.p = withZN v s.p) : KeepsFlags [.z, .n] s u := by
  intro f hf
  obtain ⟨hz, hn⟩ : f ≠ .z ∧ f ≠ .n := by simpa using hf
  rw [State.flag_def, State.flag_def, hp, flagOf_withZN, if_neg hn, if_neg hz]

theorem keepsRegs_finish {but : List Reg} (t : Timing) (c : Bool) (h : KeepsRegs but s u) :
    KeepsRegs but s (finish t c u) := fun q hq => (State.finish_reg u t c q).trans (h q hq)

/-- A register that takes a value with its Z and N, and the common tail: nothing else changes (R82, R97). -/
theorem setReg_setZN_finish (s : State) (r : Reg) (v : Byte) (t : Timing) (c : Bool) {s' : State}
    (hs' : s' = finish t c ((s.setReg r v).setZN v)) :
    s'.reg r = v ∧ ZNFollow v s' ∧ KeepsRegs [r] s s' ∧ KeepsFlags [.z, .n] s s' ∧ KeepsBus s s' ∧
      Advances t.length (cost t c) s s' := by
  subst hs'
  refine ⟨?_, znFollow_of_p rfl, keepsRegs_finish t c fun q hq => ?_, keepsFlags_of_p (v := v) ?_, keepsBus_of_eq ?_ ?_ ?_,
    advances_finish t c ?_ ?_ ?_⟩
  · rw [State.finish_reg, State.setZN_reg, State.setReg_reg, if_pos rfl]
  · exact (State.setZN_reg _ v q).trans (keepsRegs_setReg s r v q hq)
  all_goals simp

end Tail

section LoadsAndTransfers

variable {r src dst : Reg} {op : Byte} {i : Instr} {t : Timing} {s : State}

/-- Every load form is a load of its register from its operand, in the time of its row (R66, R110 to R112). -/
theorem exec_load {src : Source} (h : LoadForm r op i src t) (s : State) : exec i s = load r src t s := by
  cases h <;> rfl

/-- Every transfer form is a transfer from its source to its destination, of one byte and two cycles (R66, R116 to R120). -/
theorem exec_transfer (h : TransferForm src dst op i) (s : State) : exec i s = transfer src dst ⟨1, 2, false⟩ s := by
  cases h <;> rfl

/-- An instruction whose first access fails ends in that access's fault (R82, R212). -/
theorem outcome_bind_error {α : Type} {x : Except Fault α} {k : α → Except Fault State} {f : Fault} (h : x = .error f) :
    outcome (x >>= k) = .fault f :=
  outcome_eq_fault_iff.2 (bind_eq_error_iff.2 (.inl h))

/-- A store through an effective address that does not exist is the BUS_ERROR of its write (R212). -/
theorem store_missing {m : MemMode} {ea : Word} {c : Bool} (he : effAddr m s = .ok (ea, c))
    (hea : s.cfg.busSize ≤ ea.toNat) : store r m t s = .fault (.busError ea) := by
  rw [store, he, except_bind_ok]
  exact outcome_bind_error (memWrite_eq_error_iff.2 ⟨hea.not_gt, rfl⟩)

/-- No row of a store is marked for page crosses (R66; D16). -/
theorem storeForm_crossExtra {m : MemMode} (h : StoreForm r op i m t) : t.crossExtra = false := by
  cases h <;> rfl

end LoadsAndTransfers

/-- Settles O14: every form is one load, which writes its register, Z and N, PC and CYC. -/
theorem loadsSetRegisterZAndN : Obligations.LoadsSetRegisterZAndN := by
  intro r op i src t hform
  refine ⟨by cases hform <;> rfl, fun s => ?_⟩
  rw [exec_load hform]
  refine ⟨fun v crossed hv => ?_, fun f => outcome_bind_error⟩
  exact ⟨_, load_eq_next_iff.2 ⟨v, crossed, hv, rfl⟩, setReg_setZN_finish s r v t crossed rfl⟩

/-- Settles O15: every form is one store, which writes one cell, PC and CYC. -/
theorem storesWriteTheEffectiveAddressOnly : Obligations.StoresWriteTheEffectiveAddressOnly := by
  intro r op i m t hform
  refine ⟨by cases hform <;> rfl, fun s => ?_⟩
  rw [exec_store hform]
  refine ⟨fun ea crossed he => ⟨fun hea => ?_, store_missing he⟩, fun f => outcome_bind_error⟩
  have hadv := advances_finish (s := s) (u := s.poke ea.toNat (s.reg r)) t crossed rfl rfl rfl
  rw [cost_eq_base (storeForm_crossExtra hform)] at hadv
  exact ⟨_, store_eq_next_iff.2 ⟨ea, crossed, he, hea, rfl⟩, storesByte_of_cells rfl rfl rfl,
    keepsRegs_finish t crossed fun q _ => State.poke_reg s _ _ q, fun _ _ => rfl, hadv⟩

/-- Settles O16: a transfer form writes its destination like a load, and TXS writes SP alone. -/
theorem transfersCopyRegisters : Obligations.TransfersCopyRegisters := by
  refine ⟨fun src dst op i hform => ⟨by cases hform <;> rfl, fun s => ?_⟩, rfl, fun s => ?_⟩
  · rw [exec_transfer hform]
    exact ⟨_, transfer_eq_next src dst, setReg_setZN_finish s dst (s.reg src) ⟨1, 2, false⟩ false rfl⟩
  · exact ⟨finish ⟨1, 2, false⟩ false (s.setReg .sp s.x), rfl, rfl,
      keepsRegs_finish _ _ (keepsRegs_setReg s .sp s.x), fun _ _ => rfl, keepsBus_of_eq rfl rfl rfl,
      advances_finish ⟨1, 2, false⟩ false rfl rfl rfl⟩

end Sys2Proof.Machine

/-! # Arithmetic, logic and compare: A and the flags of each form (spec/42_arithmetic_logic_compare.md R130 to R140)

The flag and result computations of ADC and SBC are put into the numbers of the statements first. `setReg_arithFlags_finish`
says once what ADC and SBC leave behind, and `mapP_finish` what an instruction leaves behind that writes flags only. The decimal
results (O51, O52) follow from the numbers of O17 and O18 by a case split on the carry or borrow of each digit. -/

namespace Sys2Proof.Machine

open Sys2Proof.Forms

section Numbers

/-- Masking with 0x80 tests bit 7 (R130, R132). -/
theorem and_0x80_ne_zero (v : Byte) : ((v &&& 0x80) != 0) = v.getLsbD 7 := by
  rw [show (0x80 : Byte) = BitVec.twoPow 8 7 from rfl, BitVec.and_twoPow]
  cases v.getLsbD 7 <;> rfl

/-- ADC overflows when the operands have one sign and the result the other (R130). -/
theorem adcOverflow_eq (a m r : Byte) :
    adcOverflow a m r = ((a.getLsbD 7 == m.getLsbD 7) && (a.getLsbD 7 != r.getLsbD 7)) := by
  rw [adcOverflow, and_0x80_ne_zero, BitVec.getLsbD_and, BitVec.getLsbD_not, BitVec.getLsbD_xor, BitVec.getLsbD_xor]
  cases a.getLsbD 7 <;> cases m.getLsbD 7 <;> rfl

/-- SBC overflows when the operands have different signs and the result another than A (R132). -/
theorem sbcOverflow_eq (a m r : Byte) :
    sbcOverflow a m r = ((a.getLsbD 7 != m.getLsbD 7) && (a.getLsbD 7 != r.getLsbD 7)) := by
  rw [sbcOverflow, and_0x80_ne_zero, BitVec.getLsbD_and, BitVec.getLsbD_xor, BitVec.getLsbD_xor]

theorem adcSum_toNat (d : Bool) (a m : Byte) (c : Bool) :
    (BitVec.ofNat 8 (adcSum d a m c)).toNat = adcTotal d a.toNat m.toNat c.toNat % 256 := BitVec.toNat_ofNat _ _

theorem sbcResult_toNat (d : Bool) (a m : Byte) (c : Bool) :
    ((sbcResult d a m c).toNat : Int) = sbcTotal d a.toNat m.toNat c.toNat % 256 := by
  rw [sbcResult, BitVec.toNat_ofInt, Int.toNat_of_nonneg (Int.emod_nonneg _ (by decide))]
  rfl

/-! ### Binary SBC as ADC of the complement: `A - M - (1 - C) = A + (255 - M) + C - 256` -/

theorem sbcDiff_eq_adcSum_not (a m : Byte) (c : Bool) : sbcDiff a m c = (adcSum false a (~~~m) c : Int) - 256 := by
  have := m.isLt
  simp only [sbcDiff, adcSum, BitVec.toNat_not, Bool.false_eq_true, if_false]
  omega

theorem sbcResult_eq_adcSum_not (a m : Byte) (c : Bool) :
    sbcResult false a m c = BitVec.ofNat 8 (adcSum false a (~~~m) c) := by
  apply BitVec.eq_of_toNat_eq
  simp only [sbcResult, sbcDiff_eq_adcSum_not, BitVec.toNat_ofInt, BitVec.toNat_ofNat, Bool.false_eq_true, if_false]
  omega

theorem sbcCarry_eq_adcSum_not (a m : Byte) (c : Bool) :
    decide (0 ≤ sbcDiff a m c) = decide (0xFF < adcSum false a (~~~m) c) := by
  rw [sbcDiff_eq_adcSum_not, decide_eq_decide]
  omega

theorem sbcOverflow_eq_adcOverflow_not (a m r : Byte) : sbcOverflow a m r = adcOverflow a (~~~m) r := by
  rw [sbcOverflow_eq, adcOverflow_eq, BitVec.getLsbD_not]
  cases a.getLsbD 7 <;> cases m.getLsbD 7 <;> rfl

/-! ### Compare and BIT -/

theorem sub_beq_zero (a m : Byte) : (a - m == 0) = decide (a = m) := by
  rw [Bool.eq_iff_iff, beq_iff_eq, decide_eq_true_eq]
  exact sub_eq_zero

theorem sub_getLsbD_seven (a m : Byte) : (a - m).getLsbD 7 = decide (128 ≤ (a.toNat + 256 - m.toNat) % 256) := by
  have := m.isLt
  rw [getLsbD_seven, BitVec.toNat_sub, show 2 ^ 8 - m.toNat + a.toNat = a.toNat + 256 - m.toNat by omega]

theorem and_eq_zero_iff_bits (a m : Byte) : a &&& m = 0 ↔ ∀ k, k < 8 → ¬ (a.getLsbD k = true ∧ m.getLsbD k = true) := by
  simp [BitVec.eq_of_getLsbD_eq_iff]

/-! ### Decimal sums and differences of valid BCD, by the carry or borrow of each digit -/

/-- A flag as a number: 1 if its condition holds. -/
theorem toNat_decide (p : Prop) [Decidable p] : (decide p).toNat = if p then 1 else 0 := Bool.cond_decide p 1 0

/-- Correcting by 6 carries out of the low digit, and correcting by 0x60 carries out of the high one (R131). -/
theorem adcTotal_decimal_bcd {a m r : Byte} {c : Bool} (ha : ValidBcd a) (hm : ValidBcd m)
    (hr : r.toNat = adcTotal true a.toNat m.toNat c.toNat % 256) :
    ValidBcd r ∧
      bcd r + 100 * (decide (255 < adcTotal true a.toNat m.toNat c.toNat)).toNat = bcd a + bcd m + c.toNat := by
  have := c.toNat_le
  obtain ⟨ha₁, ha₀⟩ := ha
  obtain ⟨hm₁, hm₀⟩ := hm
  rw [toNat_decide]
  simp only [adcTotal, if_true] at hr ⊢
  simp only [ValidBcd, bcd]
  -- the branches of R131: a carry out of the low digit or none, out of the high digit or none
  split_ifs at hr ⊢ <;> omega

/-- Correcting by 6 borrows for the low digit, and correcting by 0x60 borrows for the high one (R133). -/
theorem sbcTotal_decimal_bcd {a m r : Byte} {c : Bool} (ha : ValidBcd a) (hm : ValidBcd m)
    (hr : (r.toNat : Int) = sbcTotal true a.toNat m.toNat c.toNat % 256) :
    ValidBcd r ∧
      bcd r + bcd m + (1 - c.toNat) =
        bcd a + 100 * (1 - (decide ((0 : Int) ≤ (a.toNat : Int) - m.toNat - (1 - c.toNat))).toNat) := by
  have := c.toNat_le
  obtain ⟨ha₁, ha₀⟩ := ha
  obtain ⟨hm₁, hm₀⟩ := hm
  rw [toNat_decide]
  simp only [sbcTotal, if_true] at hr
  simp only [ValidBcd, bcd]
  -- the branches of R133: a borrow for the low digit or none, for the whole byte or none
  split_ifs at hr ⊢ <;> omega

end Numbers

section Tails

/-- P changed by a function of its value, and the common tail: registers and BUS stay (R82). -/
theorem mapP_finish (s : State) (g : Byte → Byte) (t : Timing) (c : Bool) :
    KeepsRegs [] s (finish t c (s.mapP g)) ∧ KeepsBus s (finish t c (s.mapP g)) ∧
      Advances t.length (cost t c) s (finish t c (s.mapP g)) :=
  ⟨keepsRegs_finish t c fun q _ => State.mapP_reg s g q, keepsBus_of_eq rfl rfl rfl, advances_finish t c rfl rfl rfl⟩

/-- A that takes a value with C, V, Z and N, and the common tail: nothing else changes (R82, R130, R132). -/
theorem setReg_arithFlags_finish (s : State) (c v : Bool) (r : Byte) (t : Timing) (crossed : Bool) {s' : State}
    (hs' : s' = finish t crossed ((s.setReg .a r).mapP (withArithFlags c v r))) :
    s'.a = r ∧ s'.flag .c = c ∧ s'.flag .v = v ∧ ZNFollow r s' ∧ KeepsRegs [.a] s s' ∧
      KeepsFlags [.c, .v, .z, .n] s s' ∧ KeepsBus s s' ∧ Advances t.length (cost t crossed) s s' := by
  subst hs'
  refine ⟨rfl, ?_, ?_, znFollow_of_p rfl, keepsRegs_finish t crossed fun q hq => ?_, fun f hf => ?_,
    keepsBus_of_eq rfl rfl rfl, advances_finish t crossed rfl rfl rfl⟩
  · simp
  · simp
  · exact (State.mapP_reg _ _ q).trans (keepsRegs_setReg s .a r q hq)
  · obtain ⟨hc, hv, hz, hn⟩ : f ≠ .c ∧ f ≠ .v ∧ f ≠ .z ∧ f ≠ .n := by simpa using hf
    simp [hc, hv, hz, hn]

end Tails

section Meanings

variable {op : Byte} {i : Instr} {src : Source} {t : Timing}

/-- Every ADC form is one ADC of its operand, in the time of its row (R66, R130). -/
theorem exec_adc (h : AdcForm op i src t) (s : State) : exec i s = adc src t s := by
  cases h <;> rfl

theorem exec_sbc (h : SbcForm op i src t) (s : State) : exec i s = sbc src t s := by
  cases h <;> rfl

theorem exec_bit (h : BitForm op i src t) (s : State) : exec i s = bit src t s := by
  cases h <;> rfl

theorem exec_compare {r : Reg} (h : CompareForm r op i src t) (s : State) : exec i s = compareWith r src t s := by
  cases h <;> rfl

/-- Neither row of BIT is marked for page crosses (R66). -/
theorem bitForm_crossExtra (h : BitForm op i src t) : t.crossExtra = false := by
  cases h <;> rfl

/-- Every logic form combines A and its operand by a byte operation that is its operation on bits at each bit (R134 to R136). -/
theorem exec_logic_bitwise {g : Bool → Bool → Bool} (h : LogicForm g op i src t) :
    ∃ f : Byte → Byte → Byte, (∀ s, exec i s = logic f src t s) ∧
      ∀ a m k, (f a m).getLsbD k = g (a.getLsbD k) (m.getLsbD k) := by
  cases h with
  | andImm _ | andZp _ | andZpX _ | andAbs _ | andAbsX _ | andAbsY _ | andIndX _ | andIndY _ =>
    exact ⟨fun a m => a &&& m, fun _ => rfl, fun _ _ _ => BitVec.getLsbD_and⟩
  | oraImm _ | oraZp _ | oraZpX _ | oraAbs _ | oraAbsX _ | oraAbsY _ | oraIndX _ | oraIndY _ =>
    exact ⟨fun a m => a ||| m, fun _ => rfl, fun _ _ _ => BitVec.getLsbD_or⟩
  | eorImm _ | eorZp _ | eorZpX _ | eorAbs _ | eorAbsX _ | eorAbsY _ | eorIndX _ | eorIndY _ =>
    exact ⟨fun a m => a ^^^ m, fun _ => rfl, fun _ _ _ => BitVec.getLsbD_xor⟩

end Meanings

/-- Settles O17: every form is one ADC, whose sum and overflow test are the statement's numbers. -/
theorem adcSumAndFlags : Obligations.AdcSumAndFlags := by
  intro op i src t hform
  refine ⟨by cases hform <;> rfl, fun s => ?_⟩
  rw [exec_adc hform]
  refine ⟨fun m crossed hm => ?_, fun _ => outcome_bind_error⟩
  obtain ⟨-, hc, hv, hframe⟩ := setReg_arithFlags_finish s _ _ _ t crossed rfl
  exact ⟨_, adc_eq_next_iff.2 ⟨m, crossed, hm, rfl⟩, adcSum_toNat _ _ _ _, hc, hv.trans (adcOverflow_eq _ _ _), hframe⟩

/-- Settles O18: every form is one SBC, whose difference and overflow test are the statement's numbers. -/
theorem sbcDifferenceAndFlags : Obligations.SbcDifferenceAndFlags := by
  intro op i src t hform
  refine ⟨by cases hform <;> rfl, fun s => ?_⟩
  rw [exec_sbc hform]
  refine ⟨fun m crossed hm => ?_, fun _ => outcome_bind_error⟩
  obtain ⟨-, hc, hv, hframe⟩ := setReg_arithFlags_finish s _ _ _ t crossed rfl
  exact ⟨_, sbc_eq_next_iff.2 ⟨m, crossed, hm, rfl⟩, sbcResult_toNat _ _ _ _, hc, hv.trans (sbcOverflow_eq _ _ _), hframe⟩

/-- Settles O19: A takes the result with its Z and N, as a register takes a loaded byte. -/
theorem logicCombinesBitByBit : Obligations.LogicCombinesBitByBit := by
  intro g op i src t hform
  refine ⟨by cases hform <;> rfl, fun s => ?_⟩
  obtain ⟨f, hexec, hbits⟩ := exec_logic_bitwise hform
  rw [hexec]
  refine ⟨fun m crossed hm => ?_, fun _ => outcome_bind_error⟩
  obtain ⟨-, hframe⟩ := setReg_setZN_finish s .a (f s.a m) t crossed rfl
  exact ⟨_, logic_eq_next_iff.2 ⟨m, crossed, hm, rfl⟩, fun k _ => hbits s.a m k, hframe⟩

/-- Settles O20: both forms are one BIT, which writes P alone. -/
theorem bitTestsMemoryBits : Obligations.BitTestsMemoryBits := by
  intro op i src t hform
  refine ⟨by cases hform <;> rfl, fun s => ?_⟩
  rw [exec_bit hform]
  refine ⟨fun m crossed hm => ?_, fun _ => outcome_bind_error⟩
  obtain ⟨hregs, hbus, hadv⟩ := mapP_finish s (withBitFlags s.a m) t crossed
  rw [cost_eq_base (bitForm_crossExtra hform)] at hadv
  refine ⟨_, bit_eq_next_iff.2 ⟨m, crossed, hm, rfl⟩, ?_, ?_, ?_, hregs, fun f hf => ?_, hbus, hadv⟩
  · simpa using and_eq_zero_iff_bits s.a m
  · simp
  · simp
  · obtain ⟨hz, hn, hv⟩ : f ≠ .z ∧ f ≠ .n ∧ f ≠ .v := by simpa using hf
    simp [hz, hn, hv]

/-- Settles O21: every form is one compare, which writes P alone. -/
theorem comparesSetCarryZAndN : Obligations.ComparesSetCarryZAndN := by
  intro r op i src t hform
  refine ⟨by cases hform <;> rfl, fun s => ?_⟩
  rw [exec_compare hform]
  refine ⟨fun m crossed hm => ?_, fun _ => outcome_bind_error⟩
  obtain ⟨hregs, hbus, hadv⟩ := mapP_finish s (withCompareFlags (s.reg r) m) t crossed
  refine ⟨_, compareWith_eq_next_iff.2 ⟨m, crossed, hm, rfl⟩, ?_, ?_, ?_, hregs, fun f hf => ?_, hbus, hadv⟩
  · simp
  · simpa using sub_beq_zero (s.reg r) m
  · simpa using sub_getLsbD_seven (s.reg r) m
  · obtain ⟨hc, hz, hn⟩ : f ≠ .c ∧ f ≠ .z ∧ f ≠ .n := by simpa using hf
    simp [hc, hz, hn]

/-- Settles O50: result, carry and overflow of SBC are those of ADC of the complement, and A and P are made of these. -/
theorem binarySbcIsAdcOfComplement : Obligations.BinarySbcIsAdcOfComplement := by
  intro op i src t op' i' src' t' hsbc hadc s m c c' hd hm hm'
  rw [exec_sbc hsbc, exec_adc hadc]
  refine ⟨_, _, sbc_eq_next_iff.2 ⟨m, c, hm, rfl⟩, adc_eq_next_iff.2 ⟨_, c', hm', rfl⟩, ?_, ?_⟩
  · simp only [State.finish_a, State.mapP_a, State.setReg_a_a, hd, sbcResult_eq_adcSum_not]
  · simp only [State.finish_p, State.mapP_p, State.setReg_p, hd, sbcResult_eq_adcSum_not, sbcCarry_eq_adcSum_not,
      sbcOverflow_eq_adcOverflow_not]

/-- Settles O51: the sum of O17, corrected digit by digit. -/
theorem decimalAdcAddsBcd : Obligations.DecimalAdcAddsBcd := by
  intro op i src t hform s m c hd hm hbcdA hbcdM
  obtain ⟨-, hadc⟩ := adcSumAndFlags op i src t hform
  obtain ⟨hcompletes, -⟩ := hadc s
  obtain ⟨s', hexec, ha, hc, -⟩ := hcompletes m c hm
  rw [hd] at ha hc
  exact ⟨s', hexec, by rw [hc]; exact adcTotal_decimal_bcd hbcdA hbcdM ha⟩

/-- Settles O52: the difference of O18, corrected digit by digit. -/
theorem decimalSbcSubtractsBcd : Obligations.DecimalSbcSubtractsBcd := by
  intro op i src t hform s m c hd hm hbcdA hbcdM
  obtain ⟨-, hsbc⟩ := sbcDifferenceAndFlags op i src t hform
  obtain ⟨hcompletes, -⟩ := hsbc s
  obtain ⟨s', hexec, ha, hc, -⟩ := hcompletes m c hm
  rw [hd] at ha
  exact ⟨s', hexec, by rw [hc]; exact sbcTotal_decimal_bcd hbcdA hbcdM ha⟩

end Sys2Proof.Machine

/-! # Shifts, rotates and steps by one: bits through the carry, one cell or one register (spec/43_shift_rotate_incdec.md R150 to R159)

`shiftByte` names the byte operation of each kind of shift; its two lemmas are the bits of O22. `carryZN_finish` says once which flags a
shift writes, on A and on a cell alike; INC, DEC and the register steps write Z and N only, as the loads do. -/

namespace Sys2Proof.Machine

open Sys2Proof.Forms

section Numbers

/-- The result and the bit shifted out of each kind of shift (R150 to R153). -/
def shiftByte : ShiftKind → Bool → Byte → Byte × Bool
  | .asl => aslByte
  | .lsr => lsrByte
  | .rol => rolByte
  | .ror => rorByte

theorem shiftByte_getLsbD (k : ShiftKind) (c : Bool) (v : Byte) {j : Nat} (hj : j < 8) :
    (shiftByte k c v).1.getLsbD j = shiftedBit k c v j := by
  cases k with
  | asl =>
    simp only [shiftByte, aslByte, shiftedBit, BitVec.getLsbD_shiftLeft, hj, Nat.lt_one_iff, decide_true, Bool.true_and,
      decide_not]
  | lsr => simp only [shiftByte, lsrByte, shiftedBit, BitVec.getLsbD_ushiftRight, Nat.add_comm 1 j]
  | rol =>
    simp only [shiftByte, rolByte, shiftedBit, BitVec.getLsbD_or, BitVec.getLsbD_shiftLeft, BitVec.getLsbD_ofNat,
      Nat.testBit_bool_toNat, hj]
    by_cases h : j = 0 <;> simp [h]
  | ror =>
    simp only [shiftByte, rorByte, shiftedBit, BitVec.getLsbD_or, BitVec.getLsbD_shiftLeft, BitVec.getLsbD_ushiftRight,
      BitVec.getLsbD_ofNat, Nat.testBit_bool_toNat, hj, Nat.add_comm 1 j]
    -- bit 7 takes the carry, for there is no bit 8; below it the carry's byte is shifted away
    by_cases h : j = 7
    · simp [h]
    · simp [h, show j < 7 by omega]

theorem shiftByte_carry (k : ShiftKind) (c : Bool) (v : Byte) : (shiftByte k c v).2 = shiftedOut k v := by
  cases k <;> rfl

theorem add_ofNat_toNat (v : Byte) (k : Nat) : (v + BitVec.ofNat 8 k).toNat = (v.toNat + k) % 256 := by
  rw [BitVec.toNat_add, BitVec.toNat_ofNat, Nat.add_mod_mod]

end Numbers

section Tails

/-- Without a page cross the common tail costs the base of the row (R82; D16). -/
theorem advances_finish_base {s u : State} (t : Timing) (hpc : u.pc = s.pc) (hcyc : u.cyc = s.cyc) (hcfg : u.cfg = s.cfg) :
    Advances t.length t.base s (finish t false u) := by
  simpa [cost] using advances_finish t false hpc hcyc hcfg

/-- C, then SetZN, and the common tail: C, Z and N are written and no other flag (R82, R97). -/
theorem carryZN_finish {s u : State} (hu : u.p = s.p) (out : Bool) (r : Byte) (t : Timing) {s' : State}
    (hs' : s' = finish t false ((u.mapP (withFlag .c out)).setZN r)) :
    s'.flag .c = out ∧ ZNFollow r s' ∧ KeepsFlags [.c, .z, .n] s s' := by
  subst hs'
  refine ⟨by simp, znFollow_of_p rfl, fun f hf => ?_⟩
  obtain ⟨hc, hz, hn⟩ : f ≠ .c ∧ f ≠ .z ∧ f ≠ .n := by simpa using hf
  simp [hu, hc, hz, hn]

end Tails

section Meanings

variable {op : Byte} {i : Instr} {m : MemMode} {t : Timing} {s : State}

/-- Every shift form is one shift of its place by its kind, in the time of its row (R66, R150 to R153). -/
theorem exec_shift {k : ShiftKind} {pl : Place} (h : ShiftForm k op i pl t) (s : State) :
    exec i s = shift (shiftByte k) pl t s := by
  cases h <;> rfl

/-- Every INC and DEC form adds its number mod 256 to a cell, in the time of its row (R66, R154, R155). -/
theorem exec_addToCell {k : Nat} (h : CellStepForm k op i m t) (s : State) :
    exec i s = addToCell (BitVec.ofNat 8 k) m t s := by
  cases h <;> rfl

/-- INX, INY, DEX and DEY add their number mod 256 to their register, in one byte and two cycles (R66, R156 to R159). -/
theorem exec_addToReg {k : Nat} {r : Reg} (h : RegStepForm k r op i) (s : State) :
    exec i s = addToReg (BitVec.ofNat 8 k) r ⟨1, 2, false⟩ s := by
  cases h <;> rfl

/-- No shift form has an indirect mode, so its address resolves without a read (R66, R86 to R90). -/
theorem shiftForm_resolves {k : ShiftKind} (h : ShiftForm k op i (.mem m) t) (s : State) :
    ∃ ea c, effAddr m s = .ok (ea, c) := by
  cases h <;> exact ⟨_, _, rfl⟩

/-- No form of INC or DEC has an indirect mode either (R66, R86 to R90). -/
theorem cellStepForm_resolves {k : Nat} (h : CellStepForm k op i m t) (s : State) :
    ∃ ea c, effAddr m s = .ok (ea, c) := by
  cases h <;> exact ⟨_, _, rfl⟩

/-- A shift of a cell that does not exist is the BUS_ERROR of its read (R212). -/
theorem shift_missing {f : Bool → Byte → Byte × Bool} {ea : Word} {c : Bool} (he : effAddr m s = .ok (ea, c))
    (hea : s.cfg.busSize ≤ ea.toNat) : shift f (.mem m) t s = .fault (.busError ea) := by
  simp only [shift, resolvePlace, he, except_bind_ok, except_pure]
  exact outcome_bind_error (memRead_missing hea)

/-- INC or DEC of a cell that does not exist is the BUS_ERROR of its read (R212). -/
theorem addToCell_missing {k : Byte} {ea : Word} {c : Bool} (he : effAddr m s = .ok (ea, c))
    (hea : s.cfg.busSize ≤ ea.toNat) : addToCell k m t s = .fault (.busError ea) := by
  rw [addToCell, he, except_bind_ok]
  exact outcome_bind_error (memRead_missing hea)

end Meanings

/-- Settles O22: every form is one shift, which writes its place, C, Z and N. -/
theorem shiftsMoveBitsThroughCarry : Obligations.ShiftsMoveBitsThroughCarry := by
  intro k op i pl t hform
  refine ⟨by cases hform <;> rfl, fun s => ?_⟩
  rw [exec_shift hform]
  constructor
  · rintro rfl
    obtain ⟨hc, hzn, hflags⟩ := carryZN_finish (State.setReg_p (s := s) .a _) _ _ t rfl
    exact ⟨_, shift_acc _, fun j => shiftByte_getLsbD k _ s.a, hc.trans (shiftByte_carry k _ _), hzn,
      keepsRegs_finish t false (keepsRegs_setReg s .a _), hflags, keepsBus_of_eq rfl rfl rfl,
      advances_finish_base t rfl rfl rfl⟩
  · rintro m rfl
    obtain ⟨ea, c, he⟩ := shiftForm_resolves hform s
    refine ⟨ea, ⟨c, he⟩, fun v hv => ?_, shift_missing he⟩
    obtain ⟨hlt, rfl⟩ := busRead_eq_some_iff.1 hv
    obtain ⟨hc, hzn, hflags⟩ := carryZN_finish (State.poke_p (s := s) ea.toNat _) _ _ t rfl
    exact ⟨_, _, shift_mem_eq_next_iff.2 ⟨ea, c, he, hlt, rfl⟩, fun j => shiftByte_getLsbD k _ _,
      hc.trans (shiftByte_carry k _ _), hzn, storesByte_of_cells rfl rfl rfl,
      fun q _ => by simp, hflags, advances_finish_base t rfl rfl rfl⟩

/-- Settles O23: every form adds to one cell, whose Z and N are the only flags written. -/
theorem incAndDecStepOneCell : Obligations.IncAndDecStepOneCell := by
  intro k op i m t hform
  refine ⟨by cases hform <;> rfl, fun s => ?_⟩
  rw [exec_addToCell hform]
  obtain ⟨ea, c, he⟩ := cellStepForm_resolves hform s
  refine ⟨ea, ⟨c, he⟩, fun v hv => ?_, addToCell_missing he⟩
  obtain ⟨hlt, rfl⟩ := busRead_eq_some_iff.1 hv
  exact ⟨_, _, addToCell_eq_next_iff.2 ⟨ea, c, he, hlt, rfl⟩, add_ofNat_toNat _ k,
    storesByte_of_cells rfl rfl rfl, znFollow_of_p rfl, fun q _ => by simp,
    keepsFlags_of_p rfl, advances_finish_base t rfl rfl rfl⟩

/-- Settles O24: every form adds to one register, which takes the sum as it takes a loaded byte. -/
theorem indexRegistersStepByOne : Obligations.IndexRegistersStepByOne := by
  intro k r op i hform
  refine ⟨by cases hform <;> rfl, fun s => ?_⟩
  rw [exec_addToReg hform]
  obtain ⟨hr, hzn, hframe⟩ := setReg_setZN_finish s r (s.reg r + BitVec.ofNat 8 k) ⟨1, 2, false⟩ false rfl
  refine ⟨_, addToReg_eq_next _ r, ?_, ?_, hframe⟩
  · rw [hr, add_ofNat_toNat]
  · rwa [hr]

end Sys2Proof.Machine

/-! # Subroutines and returns: two pushes and a jump, or pops and a jump back (spec/44_branch_jump_subroutine.md R180 to R182)

`callSubroutine_absolute_eq_next_iff` and its two counterparts in Laws/Exec.lean say which state JSR, RTS and RTI leave; the
`_missing` lemmas say which slot they report. `two_storesByte` is the memory after JSR (O27); O49 is O27 followed by O28. -/

namespace Sys2Proof.Machine

open Sys2Proof.Forms

section Numbers

theorem sub_one_toNat (v : Byte) : (v - 1).toNat = (v.toNat + 255) % 256 := by
  rw [BitVec.toNat_sub, Nat.add_comm]
  rfl

theorem word_lo_toNat (w : Word) : w.lo.toNat = w.toNat % 256 := BitVec.toNat_ofNat _ _

/-- The return address, in numbers, for both values of JSR_PUSH_OFFSET (R180; D10). -/
theorem returnAddress_toNat (s : State) :
    (returnAddress s).toNat = (s.pc.toNat + if s.cfg.jsrPushOffset = .two then 2 else 3) % 65536 := by
  rw [returnAddress, BitVec.toNat_add]
  cases s.cfg.jsrPushOffset <;> rfl

/-- What RTS adds to the popped word, in numbers (R181; D10). -/
theorem add_three_sub_pushOffset_toNat (w : Word) (o : JsrPushOffset) :
    (w + (3 - pushOffset o)).toNat = (w.toNat + if o = .two then 1 else 0) % 65536 := by
  rw [BitVec.toNat_add]
  cases o <;> rfl

end Numbers

section Slots

variable {s : State}

theorem pushSlot_one (s : State) : pushSlot s 1 = 0x0100 + (s.sp - 1).toNat := by
  rw [pushSlot, sub_one_toNat]
  omega

theorem popSlot_two (s : State) : popSlot s 2 = 0x0100 + (s.sp + 1 + 1).toNat := by
  simp [popSlot, BitVec.toNat_add, Nat.add_assoc]

theorem popSlot_three (s : State) : popSlot s 3 = 0x0100 + (s.sp + 1 + 1 + 1).toNat := by
  simp [popSlot, BitVec.toNat_add, Nat.add_assoc]

/-- After two pushes the next pop reads the slot the second of them wrote, and the pop after it the first's (R98; D5). -/
theorem popSlot_after_two_pushes {t : State} (hsp : t.sp.toNat = (s.sp.toNat + 254) % 256) :
    popSlot t 1 = pushSlot s 1 ∧ popSlot t 2 = pushSlot s 0 := by
  rw [popSlot, popSlot, pushSlot, pushSlot, hsp]
  omega

end Slots

section Frames

variable {s t u : State}

/-- A write through an address, and a register with it, is one write of memory (R32, R98). -/
theorem storesByte_poke_setReg (s : State) (a : Nat) (v : Byte) (r : Reg) (n : Byte) :
    StoresByte a v s ((s.poke a v).setReg r n) := storesByte_of_cells (by simp) (by simp) (by simp)

theorem ref_eq_of_refs (h : u.refs = s.refs) (d : Nat) : u.ref d = s.ref d := congrArg (AliasTable.ref · d) h

/-- Two writes one after the other: where they name one cell, the later one is what it holds (R32). -/
theorem two_storesByte {a b : Nat} {v w : Byte} (h₁ : StoresByte a v s t) (h₂ : StoresByte b w t u) :
    (∀ c, u.cells.cell c = if c = s.ref b then w else if c = s.ref a then v else s.cells.cell c) ∧
      ∀ d, s.ref d ≠ s.ref a → s.ref d ≠ s.ref b → u.busRead d = s.busRead d := by
  obtain ⟨-, hrefs, hcells₁, -, hreads₁⟩ := h₁
  obtain ⟨-, -, hcells₂, -, hreads₂⟩ := h₂
  simp only [ref_eq_of_refs hrefs] at hcells₂ hreads₂
  exact ⟨fun c => by rw [hcells₂, hcells₁], fun d ha hb => (hreads₂ d hb).trans (hreads₁ d ha)⟩

/-- SP apart, the registers are A, X and Y (R10, R11). -/
theorem keepsRegs_sp_of_eq (ha : u.a = s.a) (hx : u.x = s.x) (hy : u.y = s.y) : KeepsRegs [.sp] s u
  | .a, _ => ha
  | .x, _ => hx
  | .y, _ => hy
  | .sp, hsp => absurd (List.mem_singleton_self Reg.sp) hsp

/-- With SP as before too, every register is (R10, R11). -/
theorem keepsRegs_of_sp (h : KeepsRegs [.sp] s u) (hsp : u.sp = s.sp) : KeepsRegs [] s u := by
  intro r _
  by_cases hr : r = .sp
  · rw [hr]
    exact hsp
  · exact h r (by simpa using hr)

end Frames

section Subroutines

variable {s : State} {w : Word} {base : Nat}

/-- An instruction whose first access succeeds goes on with its result. -/
theorem outcome_bind_ok {α : Type} {x : Except Fault α} {k : α → Except Fault State} {a : α} (h : x = .ok a) :
    outcome (x >>= k) = outcome (k a) := by
  rw [h, except_bind_ok]

theorem callSubroutine_first_missing (h : s.cfg.busSize ≤ 0x0100 + s.sp.toNat) :
    callSubroutine (.absolute w) base s = .fault (.busError (stackAddr s.sp)) :=
  (outcome_bind_ok rfl).trans (outcome_bind_error (push_eq_error h))

theorem callSubroutine_second_missing (h₁ : 0x0100 + s.sp.toNat < s.cfg.busSize)
    (h₂ : s.cfg.busSize ≤ 0x0100 + (s.sp - 1).toNat) :
    callSubroutine (.absolute w) base s = .fault (.busError (stackAddr (s.sp - 1))) :=
  (outcome_bind_ok rfl).trans <| (outcome_bind_ok (push_eq_ok_iff.2 ⟨h₁, rfl⟩)).trans <|
    outcome_bind_error (push_eq_error h₂)

/-- A pop that finds no slot after one that found its own (R98, R212). -/
theorem pop_after_pop_missing (h : s.cfg.busSize ≤ 0x0100 + (s.sp + 1 + 1).toNat) :
    pop (s.setReg .sp (s.sp + 1)) = .error (.busError (stackAddr (s.sp + 1 + 1))) :=
  pop_eq_error (s := s.setReg .sp (s.sp + 1)) h

theorem pop_ok (h : 0x0100 + (s.sp + 1).toNat < s.cfg.busSize) :
    pop s = .ok (s.peek (0x0100 + (s.sp + 1).toNat), s.setReg .sp (s.sp + 1)) :=
  pop_eq_ok_iff.2 ⟨h, rfl, rfl⟩

theorem returnFromSubroutine_second_missing (h₁ : 0x0100 + (s.sp + 1).toNat < s.cfg.busSize)
    (h₂ : s.cfg.busSize ≤ 0x0100 + (s.sp + 1 + 1).toNat) :
    returnFromSubroutine base s = .fault (.busError (stackAddr (s.sp + 1 + 1))) := by
  rw [returnFromSubroutine, outcome_bind_ok (pop_ok h₁)]
  exact outcome_bind_error (pop_after_pop_missing h₂)

theorem returnFromInterrupt_second_missing (h₁ : 0x0100 + (s.sp + 1).toNat < s.cfg.busSize)
    (h₂ : s.cfg.busSize ≤ 0x0100 + (s.sp + 1 + 1).toNat) :
    returnFromInterrupt base s = .fault (.busError (stackAddr (s.sp + 1 + 1))) := by
  rw [returnFromInterrupt, outcome_bind_ok (pop_ok h₁)]
  exact outcome_bind_error (pop_after_pop_missing h₂)

theorem returnFromInterrupt_third_missing (h₁ : 0x0100 + (s.sp + 1).toNat < s.cfg.busSize)
    (h₂ : 0x0100 + (s.sp + 1 + 1).toNat < s.cfg.busSize)
    (h₃ : s.cfg.busSize ≤ 0x0100 + (s.sp + 1 + 1 + 1).toNat) :
    returnFromInterrupt base s = .fault (.busError (stackAddr (s.sp + 1 + 1 + 1))) := by
  rw [returnFromInterrupt, outcome_bind_ok (pop_ok h₁)]
  refine (outcome_bind_ok (pop_ok (s := s.setReg .sp (s.sp + 1)) h₂)).trans ?_
  exact outcome_bind_error (pop_after_pop_missing (s := s.setReg .sp (s.sp + 1)) h₃)

end Subroutines

/-- Settles O27: JSR is two pushes, of the high byte and of the low byte, and a jump. -/
theorem jsrPushesTheReturnAddress : Obligations.JsrPushesTheReturnAddress := by
  intro w s
  rw [pushSlot_zero, pushSlot_one, ofNat_stackAddr, ofNat_stackAddr]
  refine ⟨rfl, fun h₁ h₂ => ?_, callSubroutine_first_missing, callSubroutine_second_missing⟩
  refine ⟨_, (returnAddress s).toNat, callSubroutine_absolute_eq_next_iff.2 ⟨h₁, h₂, rfl⟩, returnAddress_toNat s, ?_, ?_⟩
  · rw [State.goTo_sp, State.setReg_sp_sp, sub_one_toNat, sub_one_toNat, Nat.mod_add_mod]
    omega
  obtain ⟨hcells, hreads⟩ := two_storesByte
    (storesByte_poke_setReg s (0x0100 + s.sp.toNat) (returnAddress s).hi .sp (s.sp - 1))
    (storesByte_poke_setReg _ (0x0100 + (s.sp - 1).toNat) (returnAddress s).lo .sp (s.sp - 1 - 1))
  refine ⟨fun c => ?_, hreads, by simp, by simp, ⟨rfl, by simp⟩, keepsRegs_sp_of_eq (by simp) (by simp) (by simp),
    fun _ _ => by simp⟩
  rw [State.goTo_cells, hcells, apply_ite BitVec.toNat, apply_ite BitVec.toNat, word_lo_toNat, word_hi_toNat]

/-- Settles O28: RTS is two pops and a jump to the popped word, adjusted by the parameter. -/
theorem rtsReturnsToThePoppedAddress : Obligations.RtsReturnsToThePoppedAddress := by
  intro s
  rw [popSlot_one, popSlot_two, ofNat_stackAddr, ofNat_stackAddr]
  refine ⟨rfl, fun lo hi hlo hhi => ?_, fun h => outcome_bind_error (pop_eq_error h), returnFromSubroutine_second_missing⟩
  obtain ⟨h₁, rfl⟩ := busRead_eq_some_iff.1 hlo
  obtain ⟨h₂, rfl⟩ := busRead_eq_some_iff.1 hhi
  refine ⟨_, returnFromSubroutine_eq_next_iff.2 ⟨h₁, h₂, rfl⟩, ⟨?_, by simp⟩, ?_,
    keepsRegs_sp_of_eq (by simp) (by simp) (by simp), fun _ _ => by simp, keepsBus_of_eq (by simp) (by simp) (by simp)⟩
  · rw [State.goTo_pc, add_three_sub_pushOffset_toNat, wordOf_toNat]
  · simp [BitVec.toNat_add, Nat.add_assoc]

/-- Settles O29: RTI is three pops, a write of P that forces U, and a jump to the popped word. -/
theorem rtiRestoresStatusAndPc : Obligations.RtiRestoresStatusAndPc := by
  intro s
  rw [popSlot_one, popSlot_two, popSlot_three, ofNat_stackAddr, ofNat_stackAddr, ofNat_stackAddr]
  refine ⟨rfl, fun p lo hi hp hlo hhi => ?_, fun h => outcome_bind_error (pop_eq_error h),
    returnFromInterrupt_second_missing, returnFromInterrupt_third_missing⟩
  obtain ⟨h₁, rfl⟩ := busRead_eq_some_iff.1 hp
  obtain ⟨h₂, rfl⟩ := busRead_eq_some_iff.1 hlo
  obtain ⟨h₃, rfl⟩ := busRead_eq_some_iff.1 hhi
  refine ⟨_, returnFromInterrupt_eq_next_iff.2 ⟨h₁, h₂, h₃, rfl⟩, ⟨wordOf_toNat _ _, by simp⟩, fun f => ?_, ?_,
    keepsRegs_sp_of_eq (by simp) (by simp) (by simp), keepsBus_of_eq (by simp) (by simp) (by simp)⟩
  · refine (flagOf_statusByte _ f).trans ?_
    by_cases hf : f = .u <;> simp [hf]
  · simp [BitVec.toNat_add, Nat.add_assoc]

/-- Settles O49: RTS (O28) pops the two bytes JSR (O27) has pushed, and its adjustment makes the return address PC + 3. -/
theorem jsrThenRtsReturns : Obligations.JsrThenRtsReturns := by
  intro s w h₁ h₂ hne
  obtain ⟨-, hjsr, -⟩ := jsrPushesTheReturnAddress w s
  obtain ⟨s1, ret, hexec₁, hret, hsp₁, hcells, -, hrefs, hcfg, ⟨-, hcyc₁⟩, hregs₁, hflags₁⟩ := hjsr h₁ h₂
  obtain ⟨hslot₁, hslot₂⟩ := popSlot_after_two_pushes hsp₁
  obtain ⟨-, hrts, -⟩ := rtsReturnsToThePoppedAddress s1
  rw [hslot₁, hslot₂] at hrts
  obtain ⟨s2, hexec₂, ⟨hpc, hcyc₂⟩, hsp₂, hregs₂, hflags₂, -⟩ :=
    hrts _ _ (State.busRead_some (hcfg ▸ h₂)) (State.busRead_some (hcfg ▸ h₁))
  have hlo : (s1.peek (pushSlot s 1)).toNat = ret % 256 := by rw [State.peek, hcells, ref_eq_of_refs hrefs, if_pos rfl]
  have hhi : (s1.peek (pushSlot s 0)).toNat = ret / 256 := by
    rw [State.peek, hcells, ref_eq_of_refs hrefs, if_neg hne, if_pos rfl]
  refine ⟨s1, s2, hexec₁, hexec₂, ?_, keepsRegs_of_sp (fun r hr => (hregs₂ r hr).trans (hregs₁ r hr)) ?_,
    fun f hf => (hflags₂ f hf).trans (hflags₁ f hf), ?_⟩
  · rw [hpc, hlo, hhi, hret, hcfg]
    split_ifs <;> omega
  · apply BitVec.eq_of_toNat_eq
    have := s.sp.isLt
    omega
  · rw [hcyc₂, hcyc₁, hcfg, Nat.mod_add_mod]

end Sys2Proof.Machine

/-! # Stack, flags, NOP and BRK: one byte pushed or pulled, one flag, or nothing (spec/45_stack_flag_system.md R190 to R203)

`pushByte_eq_next_iff` and `pullByte_eq_next_iff` in Laws/Exec.lean say which state a push and a pull leave; the `_missing` lemmas
say which slot they report. The pulls reuse the tails of the loads and of BIT, with SP moved first; O48 is O30 followed by O31. -/

namespace Sys2Proof.Machine

open Sys2Proof.Forms

section StackBytes

variable {s u : State} {t : Timing}

/-- A push to a slot that does not exist is the BUS_ERROR of its write (R98, R212). -/
theorem pushByte_missing {v : Byte} (h : s.cfg.busSize ≤ 0x0100 + s.sp.toNat) :
    pushByte v t s = .fault (.busError (stackAddr s.sp)) := outcome_bind_error (push_eq_error h)

/-- A pull from a slot that does not exist is the BUS_ERROR of its read, whatever the byte was for (R98, R212). -/
theorem pullByte_missing {f : Byte → State → State} (h : s.cfg.busSize ≤ 0x0100 + (s.sp + 1).toNat) :
    pullByte f t s = .fault (.busError (stackAddr (s.sp + 1))) := outcome_bind_error (pop_eq_error h)

/-- PHA and PHP are one push, of A or of P, in the time of their rows (R66, R190, R191). -/
theorem exec_pushByte {i : Instr} {op v : Byte} (h : (i, op, v) = (.pha, 0x48, s.a) ∨ (i, op, v) = (.php, 0x08, s.p)) :
    encode i = [op] ∧ exec i s = pushByte v ⟨1, 3, false⟩ s := by
  cases h with
  | inl hpha =>
    cases hpha
    exact ⟨rfl, rfl⟩
  | inr hphp =>
    cases hphp
    exact ⟨rfl, rfl⟩

/-- PLA is one pull, into A with its Z and N (R66, R192). -/
theorem exec_pla (s : State) : exec .pla s = pullByte (fun v u => (u.setReg .a v).setZN v) ⟨1, 4, false⟩ s := rfl

/-- PLP is one pull, into P (R66, R193). -/
theorem exec_plp (s : State) : exec .plp s = pullByte (fun v u => u.mapP fun _ => statusByte v) ⟨1, 4, false⟩ s := rfl

/-- A pop reads the slot that a push before it wrote, and puts SP back (R98; D5). -/
theorem popSlot_after_push (hsp : u.sp.toNat = (s.sp.toNat + 255) % 256) : popSlot u 1 = pushSlot s 0 := by
  rw [popSlot, pushSlot, hsp]
  omega

theorem sp_eq_of_push_pop {w : State} (hpush : u.sp.toNat = (s.sp.toNat + 255) % 256)
    (hpop : w.sp.toNat = (u.sp.toNat + 1) % 256) : w.sp = s.sp := by
  apply BitVec.eq_of_toNat_eq
  have := s.sp.isLt
  omega

/-- The byte a push wrote is what the pop after it reads (R32, R98). -/
theorem busRead_popSlot_after_push {v : Byte} (hslot : pushSlot s 0 < s.cfg.busSize)
    (hsp : u.sp.toNat = (s.sp.toNat + 255) % 256) (hstores : StoresByte (pushSlot s 0) v s u) :
    u.busRead (popSlot u 1) = some v := by
  obtain ⟨-, -, -, hreads, -⟩ := hstores
  rw [popSlot_after_push hsp]
  exact hreads _ rfl hslot

end StackBytes

section FlagsAndIdle

/-- Every flag form is one write of its flag, of one byte and two cycles (R66, R194 to R200). -/
theorem exec_writeFlag {f : Flag} {b : Bool} {op : Byte} {i : Instr} (h : FlagForm f b op i) (s : State) :
    exec i s = writeFlag f b ⟨1, 2, false⟩ s := by
  cases h <;> rfl

/-- The common tail alone changes PC and CYC only (R82). -/
theorem finish_frame (s : State) (t : Timing) :
    KeepsRegs [] s (finish t false s) ∧ KeepsFlags [] s (finish t false s) ∧ KeepsBus s (finish t false s) ∧
      Advances t.length t.base s (finish t false s) :=
  ⟨keepsRegs_finish t false fun _ _ => rfl, fun _ _ => rfl, keepsBus_of_eq rfl rfl rfl,
    advances_finish_base t rfl rfl rfl⟩

end FlagsAndIdle

/-- Settles O30: both are one push, whose frame is that of a write of memory with SP. -/
theorem phaAndPhpPushOneByte : Obligations.PhaAndPhpPushOneByte := by
  intro s i op v hform
  obtain ⟨hencode, hexec⟩ := exec_pushByte hform
  rw [hexec, pushSlot_zero, ofNat_stackAddr]
  refine ⟨hencode, fun h => ?_, pushByte_missing⟩
  exact ⟨_, pushByte_eq_next_iff.2 ⟨h, rfl⟩, storesByte_of_cells rfl rfl rfl, sub_one_toNat s.sp,
    keepsRegs_sp_of_eq rfl rfl rfl, fun _ _ => rfl, advances_finish_base ⟨1, 3, false⟩ rfl rfl rfl⟩

/-- Settles O31: with SP moved, PLA is a load of A and PLP a write of P that forces U. -/
theorem plaAndPlpPullOneByte : Obligations.PlaAndPlpPullOneByte := by
  intro s
  rw [popSlot_one, ofNat_stackAddr, exec_pla, exec_plp]
  refine ⟨rfl, rfl, fun v hv => ?_, fun h => ⟨pullByte_missing h, pullByte_missing h⟩⟩
  obtain ⟨hslot, rfl⟩ := busRead_eq_some_iff.1 hv
  have hsp : (s.sp + 1).toNat = (s.sp.toNat + 1) % 256 := BitVec.toNat_add _ _
  constructor
  · obtain ⟨ha, hzn, hregs, hflags, hbus, hadv⟩ := setReg_setZN_finish (s.setReg .sp (s.sp + 1)) .a
      (s.peek (0x0100 + (s.sp + 1).toNat)) ⟨1, 4, false⟩ false rfl
    refine ⟨_, pullByte_eq_next_iff.2 ⟨hslot, rfl⟩, ha, hzn, hsp, fun r hr => ?_, hflags, hbus, hadv⟩
    obtain ⟨hra, hrsp⟩ : r ≠ .a ∧ r ≠ .sp := by simpa using hr
    exact (hregs r (by simpa using hra)).trans (keepsRegs_setReg s .sp _ r (by simpa using hrsp))
  · refine ⟨_, pullByte_eq_next_iff.2 ⟨hslot, rfl⟩, fun f => ?_, hsp, keepsRegs_sp_of_eq rfl rfl rfl,
      keepsBus_of_eq rfl rfl rfl, advances_finish_base ⟨1, 4, false⟩ rfl rfl rfl⟩
    refine (flagOf_statusByte _ f).trans ?_
    by_cases hf : f = .u <;> simp [hf]

/-- Settles O48: the pull (O31) reads the byte the push (O30) wrote. -/
theorem pushThenPullRestores : Obligations.PushThenPullRestores := by
  intro s hslot
  constructor
  · obtain ⟨-, hpha, -⟩ := phaAndPhpPushOneByte s .pha 0x48 s.a (.inl rfl)
    obtain ⟨s1, hexec₁, hstores, hsp₁, hregs₁, hflags₁, -⟩ := hpha hslot
    obtain ⟨-, -, hpull, -⟩ := plaAndPlpPullOneByte s1
    obtain ⟨⟨s2, hexec₂, ha, hzn, hsp₂, hregs₂, hflags₂, -⟩, -⟩ :=
      hpull _ (busRead_popSlot_after_push hslot hsp₁ hstores)
    refine ⟨s1, s2, hexec₁, hexec₂, keepsRegs_of_sp (keepsRegs_sp_of_eq ha ?_ ?_) (sp_eq_of_push_pop hsp₁ hsp₂), hzn,
      fun f hf => (hflags₂ f hf).trans (hflags₁ f (by simp))⟩
    · exact (hregs₂ .x (by decide)).trans (hregs₁ .x (by decide))
    · exact (hregs₂ .y (by decide)).trans (hregs₁ .y (by decide))
  · obtain ⟨-, hphp, -⟩ := phaAndPhpPushOneByte s .php 0x08 s.p (.inr rfl)
    obtain ⟨s1, hexec₁, hstores, hsp₁, hregs₁, -⟩ := hphp hslot
    obtain ⟨-, -, hpull, -⟩ := plaAndPlpPullOneByte s1
    obtain ⟨-, s2, hexec₂, hflags, hsp₂, hregs₂, -⟩ := hpull _ (busRead_popSlot_after_push hslot hsp₁ hstores)
    refine ⟨s1, s2, hexec₁, hexec₂, keepsRegs_of_sp (fun r hr => (hregs₂ r hr).trans (hregs₁ r hr))
      (sp_eq_of_push_pop hsp₁ hsp₂), fun f hf => ?_, hflags .u⟩
    rw [hflags, decide_eq_false (by simpa using hf), Bool.false_or, State.flag_def]

/-- Settles O32: every form is one write of a flag, which leaves the other flags. -/
theorem flagInstructionsWriteOneFlag : Obligations.FlagInstructionsWriteOneFlag := by
  intro f b op i hform
  refine ⟨by cases hform <;> rfl, fun s => ?_⟩
  rw [exec_writeFlag hform]
  obtain ⟨hregs, hbus, hadv⟩ := mapP_finish s (withFlag f b) ⟨1, 2, false⟩ false
  refine ⟨_, writeFlag_eq_next f b, ?_, fun g hg => ?_, hregs, hbus, hadv⟩
  · exact (flagOf_withFlag f f b s.p).trans (if_pos rfl)
  · exact (flagOf_withFlag f g b s.p).trans (if_neg (by simpa using hg))

/-- Settles O33: both are the common tail alone. -/
theorem nopAndBrkChangeNothingElse : Obligations.NopAndBrkChangeNothingElse :=
  ⟨rfl, rfl, fun s => ⟨⟨_, rfl, finish_frame s ⟨1, 2, false⟩⟩, ⟨_, rfl, finish_frame s ⟨1, 7, false⟩⟩⟩⟩

end Sys2Proof.Machine

/-! # Inspection: SNAPSHOT and the multi-byte read (spec/60_exceptions.md R224, D34)

Both lemmas about the multi-byte read follow its recursion: a READ at the first address, then the rest from the next one. -/

namespace Sys2Proof.Machine

section MultiByteRead

variable {s : State} {a n : Nat}

theorem State.readBytes_some (h : a + n ≤ s.cfg.busSize) :
    s.readBytes a n = some ((List.range n).map fun k => s.peek (a + k)) := by
  induction n generalizing a with
  | zero => rfl
  | succ n ih =>
    have hfirst : s.busRead a = some (s.peek a) := State.busRead_some (by omega)
    have hrest := ih (a := a + 1) (by omega)
    simp [State.readBytes, hfirst, hrest, List.range_succ_eq_map, Nat.add_assoc, Nat.add_comm 1]

/-- The failing READ is the first one, or one of the rest, which is then not empty. -/
theorem State.readBytes_none (h : s.cfg.busSize < a + n) (hn : 0 < n) : s.readBytes a n = none := by
  induction n generalizing a with
  | zero => exact absurd hn (lt_irrefl 0)
  | succ n ih =>
    by_cases ha : a < s.cfg.busSize
    · have hrest : s.readBytes (a + 1) n = none := ih (by omega) (by omega)
      simp [State.readBytes, State.busRead_some ha, hrest]
    · simp [State.readBytes, State.busRead_none ha]

end MultiByteRead

/-- Settles O58: the reply is a report of the old state, and `State.readBytes` says which bytes it holds or that there are none. -/
theorem inspectionReportsAndChangesNothing : Obligations.InspectionReportsAndChangesNothing := by
  refine fun s a n => ⟨rfl, fun h => ?_, fun h hn => ?_⟩
  · simp only [perform, State.readBytes_some h]
  · simp only [perform, State.readBytes_none h hn]

end Sys2Proof.Machine
